-- ==== Sys2Proof/Word.lean ====
section
/-! DEFINITION. The word types of the DA-460 (spec/00_scope.md, Conventions; spec/12_message_formats.md). -/

namespace Sys2Proof

/-- A byte of the message link (R200). -/
abbrev Byte := BitVec 8

/-- A 48-bit local or house time; sums are taken modulo 2^48 (R1). -/
abbrev Time := BitVec 48

/-- A word of the sample store (R53). -/
abbrev Word := BitVec 32

/-- A stream ID (R62). -/
abbrev StreamId := BitVec 16

/-- A block index, 0 to 2^33 − 1 (R4). -/
abbrev BlockIndex := BitVec 33

/-- The nine-byte layout of flags, enables and masks (spec/12_message_formats.md, Event flag layout): byte 0 is the most
significant byte. -/
abbrev FlagWord := BitVec 72

end Sys2Proof
end

