-- ==== Sys2Proof/Config.lean ====
section
/-! DEFINITION. The fixed figures of the part (spec/00_scope.md, Principal figures) and its free values. -/

namespace Sys2Proof.Config

/-- Ticks per block (R4). -/
def blockTicks : Nat := 32768

/-- Ticks per sample period (R5). -/
def sampleTicks : Nat := 512

/-- Samples per block (R4). -/
def blockSamples : Nat := 64

/-- Emission time after a boundary, in ticks (R5). -/
def emissionTicks : Nat := 33280

/-- The age, 2^46 ticks, at which edges, captures and anchors are retired (R8, R11, R19). -/
def ageLimit : Int := 2 ^ 46

/-- Entries of the strobe capture queue (R10). -/
def captureDepth : Nat := 16

/-- The limit of the rate correction (R20). -/
def rateLimit : Int := 858993

/-- Words per page of the sample store (R53). -/
def pageWords : Nat := 1024

/-- Records of the frame pool (R70). -/
def framePool : Nat := 128

/-- Inbound slots (R184). -/
def inboundSlots : Nat := 2

/-- Answers of the outbound queue (R184). -/
def outboundAnswers : Nat := 8

/-- The largest message payload in bytes (R190). -/
def maxPayload : Nat := 6400

/-- Unity of gains and duck levels (R128). -/
def unity : Nat := 32768

/-- The hang count set by a sounding lane (R149). -/
def hangBlocks : Nat := 256

/-- Ticks without a word-select edge after which the input clock is lost (R153). -/
def clockLossTicks : Int := 65536

/-- The phase step of one sample per sample, 2^24 (R108). -/
def unitStep : Int := 2 ^ 24

/-- The part code reported by XIDENT (R197). -/
def partCode : BitVec 16 := 0x0460

/-- The silicon revision of the parts the manual describes (R197). -/
def revision : Byte := 1

/-- FREE VALUE (log 7, R183): the level the outside drives on the contact of line number `line` at the `sample`-th reading. -/
opaque contactLevel (sample line : Nat) : Bool

/-- FREE VALUE (log 7, R151): the level the outside drives on SPC's data line at the `sample`-th reading. -/
opaque dataLevel (sample : Nat) : Bool

/-- FREE VALUE (log 34): the part refuses a PCFG of SPA or SPB whose clock mode code is outside its list, as R200 has it, where check 1
of R154 names that code for SPC alone. -/
opaque refusesUnusedClockMode : Bool

end Sys2Proof.Config
end

