-- ==== Sys2Proof/Syntax.lean ====
section
/-! DEFINITION. The commands of the part: one constructor of `Instr` per row of spec/opcode_table.json, with the operands its rule
gives it. A request's fields stand at the raw widths of the field table (spec/12_message_formats.md), so that an unknown code can
be carried and refused (R200). -/

namespace Sys2Proof

/-- The direction of a STROBE transition (R7). -/
inductive EdgeDir where
  | rising
  | falling
  deriving DecidableEq, Repr

/-- The two output ports (R143). -/
inductive OutPort where
  | spa
  | spb
  deriving DecidableEq, Repr

/-- A request as the link took it: the whole bytes received, and whether bytes beyond the largest message were dropped
(R187, R190; log 24). -/
structure RawRequest where
  bytes : List Byte
  overlong : Bool
  deriving DecidableEq, Repr

/-- The payload of TSET (R41). -/
structure TsetReq where
  kp : Byte
  ki : Byte
  kia : Byte
  w : BitVec 32
  wacq : BitVec 32
  nout : Byte
  nacq : Byte
  thold : BitVec 32
  tfree : BitVec 48
  deriving DecidableEq, Repr

/-- The payload of TROLE (R38 to R40). -/
structure TroleReq where
  role : Byte
  epoch : Byte
  deriving DecidableEq, Repr

/-- The payload of TSYNC (R21). -/
structure TsyncReq where
  seq : Byte
  epoch : Byte
  house : Time
  deriving DecidableEq, Repr

/-- The payload of TSTROBE (R14). -/
structure TstrobeReq where
  polarity : Byte
  latency : BitVec 16
  spacing : BitVec 16
  deriving DecidableEq, Repr

/-- The payload of LCFG (R47), in the order of the field table. -/
structure LcfgReq where
  lane : Byte
  enable : Byte
  direction : Byte
  firstPage : Byte
  lastPage : Byte
  quota : Byte
  channels : Byte
  policy : Byte
  leadLimit : BitVec 32
  low : BitVec 32
  high : BitVec 32
  roomOffset : BitVec 32
  gs : Byte
  trimMax : BitVec 16
  slipLimit : BitVec 32
  frameSize : BitVec 16
  dataMark : Byte
  inputLatency : BitVec 16
  deriving DecidableEq, Repr

/-- The payload of LBIND (R63): presence bytes before the stream and before T. -/
structure LbindReq where
  lane : Byte
  streamP : Byte
  stream : StreamId
  timeP : Byte
  time : Time
  deriving DecidableEq, Repr

/-- The payload of LFRAME (R73): eighteen bytes of fields, then the packed samples. -/
structure LframeReq where
  stream : StreamId
  seq : BitVec 16
  epoch : Byte
  pts : Time
  samples : BitVec 16
  channels : Byte
  width : Byte
  marks : Byte
  tagP : Byte
  cueTag : Byte
  payload : List Byte
  deriving DecidableEq, Repr

/-- The payload of LHALT (R86). -/
structure LhaltReq where
  lane : Byte
  flush : Byte
  deriving DecidableEq, Repr

/-- The payload of MGAIN (R132). -/
structure MgainReq where
  lane : Byte
  port : Byte
  map : Byte
  gain : BitVec 16
  ramp : Byte
  deriving DecidableEq, Repr

/-- The payload of MDUCK (R137). -/
structure MduckReq where
  d1 : BitVec 16
  d2 : BitVec 16
  d3 : BitVec 16
  attack : Byte
  release : Byte
  class0 : Byte
  class1 : Byte
  class2 : Byte
  class3 : Byte
  class4 : Byte
  class5 : Byte
  deriving DecidableEq, Repr

/-- The payload of PCFG (R154). -/
structure PcfgReq where
  port : Byte
  enable : Byte
  width : Byte
  polarity : Byte
  alignment : Byte
  latency : BitVec 16
  master : BitVec 16
  clockMode : Byte
  deriving DecidableEq, Repr

/-- The payload of CSET (R176). -/
structure CsetReq where
  cue : Byte
  mode : Byte
  target : Time
  interval : BitVec 48
  reload : BitVec 16
  gate : Byte
  action : Byte
  lane : Byte
  flush : Byte
  port : Byte
  gain : BitVec 16
  ramp : Byte
  report : Byte
  line : Byte
  deriving DecidableEq, Repr

/-- The payload of CRUN (R178). -/
structure CrunReq where
  cue : Byte
  choices : Byte
  deriving DecidableEq, Repr

/-- The payload of GSET (R182). -/
structure GsetReq where
  line : Byte
  function : Byte
  cue : Byte
  level : Byte
  deriving DecidableEq, Repr

/-- The commands: the rows of spec/opcode_table.json. `tag` is the host's tag of a request (R191). -/
inductive Instr where
  /-- COLD_RESET, R199. -/
  | coldReset
  /-- COUNT_START, R3. -/
  | countStart
  /-- BLOCK_BOUNDARY, R4. -/
  | blockBoundary
  /-- STROBE_EDGE, R7: a transition of STROBE seen at the present tick. -/
  | strobeEdge (dir : EdgeDir)
  /-- LAST_ACCEPTED_EDGE_EXPIRY, R8. -/
  | lastAcceptedEdgeExpiry
  /-- CAPTURE_ENTRY_EXPIRY, R11. -/
  | captureEntryExpiry
  /-- RE_ANCHOR, R19. -/
  | reAnchor
  /-- HOLDOVER_EXPIRY, R35. -/
  | holdoverExpiry
  /-- FREERUN_EXPIRY, R36. -/
  | freerunExpiry
  /-- CHIP_SELECT_FALL, R185. -/
  | chipSelectFall
  /-- CHIP_SELECT_RISE, R186, R187: the whole bytes of the request on MOSI, and how many whole bytes crossed MISO (log 5). -/
  | chipSelectRise (mosi : List Byte) (crossed : Nat)
  /-- FRAMING_REFUSAL, R190: the processing of a taken request that fails framing. -/
  | framingRefusal (raw : RawRequest)
  /-- TNOW, R42. -/
  | tnow (tag : Byte)
  /-- TSET, R41. -/
  | tset (tag : Byte) (req : TsetReq)
  /-- TROLE, R38. -/
  | trole (tag : Byte) (req : TroleReq)
  /-- TSYNC, R21. -/
  | tsync (tag : Byte) (req : TsyncReq)
  /-- TSTROBE, R14. -/
  | tstrobe (tag : Byte) (req : TstrobeReq)
  /-- TCAPS, R15. -/
  | tcaps (tag : Byte) (count : Byte)
  /-- TINJ, R16. -/
  | tinj (tag : Byte)
  /-- LCFG, R47. -/
  | lcfg (tag : Byte) (req : LcfgReq)
  /-- LBIND, R63. -/
  | lbind (tag : Byte) (req : LbindReq)
  /-- LFRAME, R73. -/
  | lframe (tag : Byte) (req : LframeReq)
  /-- LGO, R85. -/
  | lgo (tag : Byte) (lane : Byte)
  /-- LHALT, R86. -/
  | lhalt (tag : Byte) (req : LhaltReq)
  /-- LSTAT, R107. -/
  | lstat (tag : Byte) (lane : Byte)
  /-- LFETCH, R165. -/
  | lfetch (tag : Byte) (lane : Byte)
  /-- MGAIN, R132. -/
  | mgain (tag : Byte) (req : MgainReq)
  /-- MDUCK, R137. -/
  | mduck (tag : Byte) (req : MduckReq)
  /-- PCFG, R154. -/
  | pcfg (tag : Byte) (req : PcfgReq)
  /-- CSET, R176. -/
  | cset (tag : Byte) (req : CsetReq)
  /-- CRUN, R178. -/
  | crun (tag : Byte) (req : CrunReq)
  /-- GSET, R182. -/
  | gset (tag : Byte) (req : GsetReq)
  /-- GREAD, R183. -/
  | gread (tag : Byte)
  /-- EREAD, R194. -/
  | eread (tag : Byte)
  /-- ECLEAR, R195. -/
  | eclear (tag : Byte) (mask : FlagWord)
  /-- EMASK, R196. -/
  | emask (tag : Byte) (enables : FlagWord)
  /-- XRESET, R198. -/
  | xreset (tag : Byte)
  /-- XIDENT, R197. -/
  | xident (tag : Byte)
  /-- HANG_TAIL_END, R149. -/
  | hangTailEnd (port : OutPort)
  /-- SAMPLE_PERIOD, R146: the start of a sample period of an output port. -/
  | samplePeriod (port : OutPort)
  /-- SPC_SAMPLE_COMPLETE, R152: an opening edge seen on SPC: a word-select transition to the level of the left slot (R150). -/
  | spcSampleComplete
  /-- INPUT_CLOCK_LOSS, R153. -/
  | inputClockLoss
  /-- SPC_WORD_SELECT_EDGE, R153: a word-select transition that is not an opening edge: one to the level of the right slot. -/
  | spcWordSelectEdge
  /-- SPC_BIT_TAKEN, R151: a rising edge of SPC's bit clock, with the level of the data line there (log 12). -/
  | spcBitTaken (bit : Bool)
  deriving DecidableEq, Repr

end Sys2Proof
end

