-- ==== Sys2Proof/WellFormed.lean ====
section
/-! DEFINITION. Which command terms stand for something that can happen on the part's pins. The meanings are total; these checks
say which terms the outside can send. -/

namespace Sys2Proof

/-- A taken request (R187, R190): at least one byte, a first byte that is not 0 (type NONE is a poll), at most a header and 6,400
bytes of payload kept, and only a request that reached that length is overlong. -/
def RawRequest.wf (r : RawRequest) : Bool :=
  (match r.bytes with
    | [] => false
    | b :: _ => b != 0)
  && decide (r.bytes.length ≤ 4 + Config.maxPayload)
  && (!r.overlong || r.bytes.length == 4 + Config.maxPayload)

/-- A command is well formed when the outside can send it: the request bytes of a transaction are no more than the bytes that
crossed in it (mode 0 SPI, one byte each way at a time; log 5), a framing refusal names a taken request, and an LFRAME fits the
largest payload (R190). -/
def Instr.wf : Instr → Bool
  | .chipSelectRise mosi crossed => decide (mosi.length ≤ crossed)
  | .framingRefusal raw => raw.wf
  | .lframe _ r => decide (18 + r.payload.length ≤ Config.maxPayload)
  | .coldReset => true
  | .countStart => true
  | .blockBoundary => true
  | .strobeEdge _ => true
  | .lastAcceptedEdgeExpiry => true
  | .captureEntryExpiry => true
  | .reAnchor => true
  | .holdoverExpiry => true
  | .freerunExpiry => true
  | .chipSelectFall => true
  | .tnow _ => true
  | .tset _ _ => true
  | .trole _ _ => true
  | .tsync _ _ => true
  | .tstrobe _ _ => true
  | .tcaps _ _ => true
  | .tinj _ => true
  | .lcfg _ _ => true
  | .lbind _ _ => true
  | .lgo _ _ => true
  | .lhalt _ _ => true
  | .lstat _ _ => true
  | .lfetch _ _ => true
  | .mgain _ _ => true
  | .mduck _ _ => true
  | .pcfg _ _ => true
  | .cset _ _ => true
  | .crun _ _ => true
  | .gset _ _ => true
  | .gread _ => true
  | .eread _ => true
  | .eclear _ _ => true
  | .emask _ _ => true
  | .xreset _ => true
  | .xident _ => true
  | .hangTailEnd _ => true
  | .samplePeriod _ => true
  | .spcSampleComplete => true
  | .inputClockLoss => true
  | .spcWordSelectEdge => true
  | .spcBitTaken _ => true

end Sys2Proof
end

