-- ==== Sys2Proof/Decode.lean ====
section
/-! DEFINITION. The link's decoder and encoder of requests: the framing of R190, the type codes and the field table of
spec/12_message_formats.md (R200). The opcode table gives its rows no bits, so `decodeTableWord` spells no command. -/

namespace Sys2Proof

/-- The command that a word spells by the opcode table's bits: the table gives no row bits, so no word spells one. -/
def decodeTableWord (_nbits _w : Nat) : Option Instr := none

/-! ## Big-endian fields (R200) -/

/-- One byte. -/
def put8 (v : Byte) : List Byte := [v]

/-- Two bytes, big-endian. -/
def put16 (v : BitVec 16) : List Byte := [v.extractLsb' 8 8, v.extractLsb' 0 8]

/-- Four bytes, big-endian. -/
def put32 (v : BitVec 32) : List Byte :=
  [v.extractLsb' 24 8, v.extractLsb' 16 8, v.extractLsb' 8 8, v.extractLsb' 0 8]

/-- Six bytes, big-endian: a 48-bit time. -/
def put48 (v : BitVec 48) : List Byte :=
  [v.extractLsb' 40 8, v.extractLsb' 32 8, v.extractLsb' 24 8, v.extractLsb' 16 8, v.extractLsb' 8 8, v.extractLsb' 0 8]

/-- Nine bytes: the flag layout, byte 0 first. -/
def put72 (v : BitVec 72) : List Byte :=
  [v.extractLsb' 64 8, v.extractLsb' 56 8, v.extractLsb' 48 8, v.extractLsb' 40 8, v.extractLsb' 32 8,
    v.extractLsb' 24 8, v.extractLsb' 16 8, v.extractLsb' 8 8, v.extractLsb' 0 8]

/-- The next byte and the rest; a byte that is not there reads 0. -/
def get8 : List Byte → Byte × List Byte
  | [] => (0, [])
  | b :: rest => (b, rest)

/-- The next two bytes as one number. -/
def get16 (p0 : List Byte) : BitVec 16 × List Byte :=
  let a := get8 p0
  let b := get8 a.2
  (a.1 ++ b.1, b.2)

/-- The next four bytes as one number. -/
def get32 (p0 : List Byte) : BitVec 32 × List Byte :=
  let a := get16 p0
  let b := get16 a.2
  (a.1 ++ b.1, b.2)

/-- The next six bytes as one number. -/
def get48 (p0 : List Byte) : BitVec 48 × List Byte :=
  let a := get16 p0
  let b := get32 a.2
  (a.1 ++ b.1, b.2)

/-- The next nine bytes as one flag word. -/
def get72 (p0 : List Byte) : BitVec 72 × List Byte :=
  let a := get8 p0
  let b := get32 a.2
  let c := get32 b.2
  (a.1 ++ (b.1 ++ c.1), c.2)

/-! ## Request types -/

/-- The request types (Type codes table). -/
inductive ReqType where
  | tnow | tset | trole | tsync | tstrobe | tcaps | tinj
  | lcfg | lbind | lframe | lgo | lhalt | lstat | lfetch
  | mgain | mduck | pcfg | cset | crun | gset | gread
  | eread | eclear | emask | xreset | xident
  deriving DecidableEq, Repr

/-- The type code of a request (Type codes table). -/
def ReqType.code : ReqType → Byte
  | .tnow => 0x01 | .tset => 0x02 | .trole => 0x03 | .tsync => 0x04 | .tstrobe => 0x05 | .tcaps => 0x06 | .tinj => 0x07
  | .lcfg => 0x10 | .lbind => 0x11 | .lframe => 0x12 | .lgo => 0x13 | .lhalt => 0x14 | .lstat => 0x15 | .lfetch => 0x16
  | .mgain => 0x20 | .mduck => 0x21 | .pcfg => 0x28 | .cset => 0x30 | .crun => 0x31 | .gset => 0x38 | .gread => 0x39
  | .eread => 0x40 | .eclear => 0x41 | .emask => 0x42 | .xreset => 0x70 | .xident => 0x71

/-- Every request type, in the order of the table. -/
def ReqType.all : List ReqType :=
  [.tnow, .tset, .trole, .tsync, .tstrobe, .tcaps, .tinj, .lcfg, .lbind, .lframe, .lgo, .lhalt, .lstat, .lfetch,
    .mgain, .mduck, .pcfg, .cset, .crun, .gset, .gread, .eread, .eclear, .emask, .xreset, .xident]

/-- The request type a type byte names, if it is a known one. -/
def ReqType.ofCode (c : Byte) : Option ReqType := ReqType.all.find? (fun t => t.code == c)

/-- The fixed payload length of a request type; LFRAME has none (R200, field table). -/
def ReqType.fixedLength : ReqType → Option Nat
  | .tnow => some 0 | .tset => some 23 | .trole => some 2 | .tsync => some 8 | .tstrobe => some 5 | .tcaps => some 1
  | .tinj => some 0 | .lcfg => some 36 | .lbind => some 11 | .lframe => none | .lgo => some 1 | .lhalt => some 2
  | .lstat => some 1 | .lfetch => some 1 | .mgain => some 6 | .mduck => some 14 | .pcfg => some 10 | .cset => some 26
  | .crun => some 2 | .gset => some 4 | .gread => some 0 | .eread => some 0 | .eclear => some 9 | .emask => some 9
  | .xreset => some 0 | .xident => some 0

/-! ## Payloads -/

/-- TSET's payload as bytes (R200, field table; R41). -/
def TsetReq.encode (r : TsetReq) : List Byte :=
  put8 r.kp ++ put8 r.ki ++ put8 r.kia ++ put32 r.w ++ put32 r.wacq ++ put8 r.nout ++ put8 r.nacq ++ put32 r.thold ++
    put48 r.tfree

/-- TSET's fields from its payload bytes (R200, field table; R41). -/
def TsetReq.decode (p0 : List Byte) : TsetReq :=
  let x0 := get8 p0
  let p1 := x0.2
  let x1 := get8 p1
  let p2 := x1.2
  let x2 := get8 p2
  let p3 := x2.2
  let x3 := get32 p3
  let p4 := x3.2
  let x4 := get32 p4
  let p5 := x4.2
  let x5 := get8 p5
  let p6 := x5.2
  let x6 := get8 p6
  let p7 := x6.2
  let x7 := get32 p7
  let p8 := x7.2
  let x8 := get48 p8
  { kp := x0.1, ki := x1.1, kia := x2.1, w := x3.1, wacq := x4.1, nout := x5.1, nacq := x6.1, thold := x7.1, tfree :=
    x8.1 }

/-- TROLE's payload as bytes (R200, field table; R38). -/
def TroleReq.encode (r : TroleReq) : List Byte :=
  put8 r.role ++ put8 r.epoch

/-- TROLE's fields from its payload bytes (R200, field table; R38). -/
def TroleReq.decode (p0 : List Byte) : TroleReq :=
  let x0 := get8 p0
  let p1 := x0.2
  let x1 := get8 p1
  { role := x0.1, epoch := x1.1 }

/-- TSYNC's payload as bytes (R200, field table; R21). -/
def TsyncReq.encode (r : TsyncReq) : List Byte :=
  put8 r.seq ++ put8 r.epoch ++ put48 r.house

/-- TSYNC's fields from its payload bytes (R200, field table; R21). -/
def TsyncReq.decode (p0 : List Byte) : TsyncReq :=
  let x0 := get8 p0
  let p1 := x0.2
  let x1 := get8 p1
  let p2 := x1.2
  let x2 := get48 p2
  { seq := x0.1, epoch := x1.1, house := x2.1 }

/-- TSTROBE's payload as bytes (R200, field table; R14). -/
def TstrobeReq.encode (r : TstrobeReq) : List Byte :=
  put8 r.polarity ++ put16 r.latency ++ put16 r.spacing

/-- TSTROBE's fields from its payload bytes (R200, field table; R14). -/
def TstrobeReq.decode (p0 : List Byte) : TstrobeReq :=
  let x0 := get8 p0
  let p1 := x0.2
  let x1 := get16 p1
  let p2 := x1.2
  let x2 := get16 p2
  { polarity := x0.1, latency := x1.1, spacing := x2.1 }

/-- LCFG's payload as bytes (R200, field table; R47). -/
def LcfgReq.encode (r : LcfgReq) : List Byte :=
  put8 r.lane ++ put8 r.enable ++ put8 r.direction ++ put8 r.firstPage ++ put8 r.lastPage ++ put8 r.quota ++ put8
    r.channels ++ put8 r.policy ++ put32 r.leadLimit ++ put32 r.low ++ put32 r.high ++ put32 r.roomOffset ++ put8 r.gs
    ++ put16 r.trimMax ++ put32 r.slipLimit ++ put16 r.frameSize ++ put8 r.dataMark ++ put16 r.inputLatency

/-- LCFG's fields from its payload bytes (R200, field table; R47). -/
def LcfgReq.decode (p0 : List Byte) : LcfgReq :=
  let x0 := get8 p0
  let p1 := x0.2
  let x1 := get8 p1
  let p2 := x1.2
  let x2 := get8 p2
  let p3 := x2.2
  let x3 := get8 p3
  let p4 := x3.2
  let x4 := get8 p4
  let p5 := x4.2
  let x5 := get8 p5
  let p6 := x5.2
  let x6 := get8 p6
  let p7 := x6.2
  let x7 := get8 p7
  let p8 := x7.2
  let x8 := get32 p8
  let p9 := x8.2
  let x9 := get32 p9
  let p10 := x9.2
  let x10 := get32 p10
  let p11 := x10.2
  let x11 := get32 p11
  let p12 := x11.2
  let x12 := get8 p12
  let p13 := x12.2
  let x13 := get16 p13
  let p14 := x13.2
  let x14 := get32 p14
  let p15 := x14.2
  let x15 := get16 p15
  let p16 := x15.2
  let x16 := get8 p16
  let p17 := x16.2
  let x17 := get16 p17
  { lane := x0.1, enable := x1.1, direction := x2.1, firstPage := x3.1, lastPage := x4.1, quota := x5.1, channels :=
    x6.1, policy := x7.1, leadLimit := x8.1, low := x9.1, high := x10.1, roomOffset := x11.1, gs := x12.1, trimMax :=
    x13.1, slipLimit := x14.1, frameSize := x15.1, dataMark := x16.1, inputLatency := x17.1 }

/-- LBIND's payload as bytes (R200, field table; R63). -/
def LbindReq.encode (r : LbindReq) : List Byte :=
  put8 r.lane ++ put8 r.streamP ++ put16 r.stream ++ put8 r.timeP ++ put48 r.time

/-- LBIND's fields from its payload bytes (R200, field table; R63). -/
def LbindReq.decode (p0 : List Byte) : LbindReq :=
  let x0 := get8 p0
  let p1 := x0.2
  let x1 := get8 p1
  let p2 := x1.2
  let x2 := get16 p2
  let p3 := x2.2
  let x3 := get8 p3
  let p4 := x3.2
  let x4 := get48 p4
  { lane := x0.1, streamP := x1.1, stream := x2.1, timeP := x3.1, time := x4.1 }

/-- LFRAME's payload as bytes (R200, field table; R73). -/
def LframeReq.encode (r : LframeReq) : List Byte :=
  put16 r.stream ++ put16 r.seq ++ put8 r.epoch ++ put48 r.pts ++ put16 r.samples ++ put8 r.channels ++ put8 r.width
    ++ put8 r.marks ++ put8 r.tagP ++ put8 r.cueTag ++ r.payload

/-- LFRAME's fields from its payload bytes (R200, field table; R73). -/
def LframeReq.decode (p0 : List Byte) : LframeReq :=
  let x0 := get16 p0
  let p1 := x0.2
  let x1 := get16 p1
  let p2 := x1.2
  let x2 := get8 p2
  let p3 := x2.2
  let x3 := get48 p3
  let p4 := x3.2
  let x4 := get16 p4
  let p5 := x4.2
  let x5 := get8 p5
  let p6 := x5.2
  let x6 := get8 p6
  let p7 := x6.2
  let x7 := get8 p7
  let p8 := x7.2
  let x8 := get8 p8
  let p9 := x8.2
  let x9 := get8 p9
  let p10 := x9.2
  { stream := x0.1, seq := x1.1, epoch := x2.1, pts := x3.1, samples := x4.1, channels := x5.1, width := x6.1, marks
    := x7.1, tagP := x8.1, cueTag := x9.1, payload := p10 }

/-- LHALT's payload as bytes (R200, field table; R86). -/
def LhaltReq.encode (r : LhaltReq) : List Byte :=
  put8 r.lane ++ put8 r.flush

/-- LHALT's fields from its payload bytes (R200, field table; R86). -/
def LhaltReq.decode (p0 : List Byte) : LhaltReq :=
  let x0 := get8 p0
  let p1 := x0.2
  let x1 := get8 p1
  { lane := x0.1, flush := x1.1 }

/-- MGAIN's payload as bytes (R200, field table; R132). -/
def MgainReq.encode (r : MgainReq) : List Byte :=
  put8 r.lane ++ put8 r.port ++ put8 r.map ++ put16 r.gain ++ put8 r.ramp

/-- MGAIN's fields from its payload bytes (R200, field table; R132). -/
def MgainReq.decode (p0 : List Byte) : MgainReq :=
  let x0 := get8 p0
  let p1 := x0.2
  let x1 := get8 p1
  let p2 := x1.2
  let x2 := get8 p2
  let p3 := x2.2
  let x3 := get16 p3
  let p4 := x3.2
  let x4 := get8 p4
  { lane := x0.1, port := x1.1, map := x2.1, gain := x3.1, ramp := x4.1 }

/-- MDUCK's payload as bytes (R200, field table; R137). -/
def MduckReq.encode (r : MduckReq) : List Byte :=
  put16 r.d1 ++ put16 r.d2 ++ put16 r.d3 ++ put8 r.attack ++ put8 r.release ++ put8 r.class0 ++ put8 r.class1 ++ put8
    r.class2 ++ put8 r.class3 ++ put8 r.class4 ++ put8 r.class5

/-- MDUCK's fields from its payload bytes (R200, field table; R137). -/
def MduckReq.decode (p0 : List Byte) : MduckReq :=
  let x0 := get16 p0
  let p1 := x0.2
  let x1 := get16 p1
  let p2 := x1.2
  let x2 := get16 p2
  let p3 := x2.2
  let x3 := get8 p3
  let p4 := x3.2
  let x4 := get8 p4
  let p5 := x4.2
  let x5 := get8 p5
  let p6 := x5.2
  let x6 := get8 p6
  let p7 := x6.2
  let x7 := get8 p7
  let p8 := x7.2
  let x8 := get8 p8
  let p9 := x8.2
  let x9 := get8 p9
  let p10 := x9.2
  let x10 := get8 p10
  { d1 := x0.1, d2 := x1.1, d3 := x2.1, attack := x3.1, release := x4.1, class0 := x5.1, class1 := x6.1, class2 :=
    x7.1, class3 := x8.1, class4 := x9.1, class5 := x10.1 }

/-- PCFG's payload as bytes (R200, field table; R154). -/
def PcfgReq.encode (r : PcfgReq) : List Byte :=
  put8 r.port ++ put8 r.enable ++ put8 r.width ++ put8 r.polarity ++ put8 r.alignment ++ put16 r.latency ++ put16
    r.master ++ put8 r.clockMode

/-- PCFG's fields from its payload bytes (R200, field table; R154). -/
def PcfgReq.decode (p0 : List Byte) : PcfgReq :=
  let x0 := get8 p0
  let p1 := x0.2
  let x1 := get8 p1
  let p2 := x1.2
  let x2 := get8 p2
  let p3 := x2.2
  let x3 := get8 p3
  let p4 := x3.2
  let x4 := get8 p4
  let p5 := x4.2
  let x5 := get16 p5
  let p6 := x5.2
  let x6 := get16 p6
  let p7 := x6.2
  let x7 := get8 p7
  { port := x0.1, enable := x1.1, width := x2.1, polarity := x3.1, alignment := x4.1, latency := x5.1, master := x6.1,
    clockMode := x7.1 }

/-- CSET's payload as bytes (R200, field table; R176). -/
def CsetReq.encode (r : CsetReq) : List Byte :=
  put8 r.cue ++ put8 r.mode ++ put48 r.target ++ put48 r.interval ++ put16 r.reload ++ put8 r.gate ++ put8 r.action ++
    put8 r.lane ++ put8 r.flush ++ put8 r.port ++ put16 r.gain ++ put8 r.ramp ++ put8 r.report ++ put8 r.line

/-- CSET's fields from its payload bytes (R200, field table; R176). -/
def CsetReq.decode (p0 : List Byte) : CsetReq :=
  let x0 := get8 p0
  let p1 := x0.2
  let x1 := get8 p1
  let p2 := x1.2
  let x2 := get48 p2
  let p3 := x2.2
  let x3 := get48 p3
  let p4 := x3.2
  let x4 := get16 p4
  let p5 := x4.2
  let x5 := get8 p5
  let p6 := x5.2
  let x6 := get8 p6
  let p7 := x6.2
  let x7 := get8 p7
  let p8 := x7.2
  let x8 := get8 p8
  let p9 := x8.2
  let x9 := get8 p9
  let p10 := x9.2
  let x10 := get16 p10
  let p11 := x10.2
  let x11 := get8 p11
  let p12 := x11.2
  let x12 := get8 p12
  let p13 := x12.2
  let x13 := get8 p13
  { cue := x0.1, mode := x1.1, target := x2.1, interval := x3.1, reload := x4.1, gate := x5.1, action := x6.1, lane :=
    x7.1, flush := x8.1, port := x9.1, gain := x10.1, ramp := x11.1, report := x12.1, line := x13.1 }

/-- CRUN's payload as bytes (R200, field table; R178). -/
def CrunReq.encode (r : CrunReq) : List Byte :=
  put8 r.cue ++ put8 r.choices

/-- CRUN's fields from its payload bytes (R200, field table; R178). -/
def CrunReq.decode (p0 : List Byte) : CrunReq :=
  let x0 := get8 p0
  let p1 := x0.2
  let x1 := get8 p1
  { cue := x0.1, choices := x1.1 }

/-- GSET's payload as bytes (R200, field table; R182). -/
def GsetReq.encode (r : GsetReq) : List Byte :=
  put8 r.line ++ put8 r.function ++ put8 r.cue ++ put8 r.level

/-- GSET's fields from its payload bytes (R200, field table; R182). -/
def GsetReq.decode (p0 : List Byte) : GsetReq :=
  let x0 := get8 p0
  let p1 := x0.2
  let x1 := get8 p1
  let p2 := x1.2
  let x2 := get8 p2
  let p3 := x2.2
  let x3 := get8 p3
  { line := x0.1, function := x1.1, cue := x2.1, level := x3.1 }
/-! ## Whole requests -/

/-- What the framing checks of R190 say of a taken request. -/
inductive Framing where
  /-- It passes, with this type, tag and payload. -/
  | ok (type : ReqType) (tag : Byte) (payload : List Byte)
  /-- E_LEN, check 1 or 3 of R190 (or LFRAME's own first check, for a payload that cannot hold its eighteen bytes of fields),
  answered with this answer type and tag. -/
  | badLength (answerType : Byte) (tag : Byte)
  /-- E_TYPE, check 2 of R190, answered with type 0x80 and this tag. -/
  | badType (tag : Byte)
  deriving DecidableEq, Repr

/-- The answer type for a type byte: the type with 0x80 added, and 0x80 for a type that is not known (R191, R201). -/
def answerTypeOf (c : Byte) : Byte :=
  match ReqType.ofCode c with
  | some t => t.code + 0x80
  | none => 0x80

/-- The framing checks, in the order of R190; the fields a short header lacks read 0. -/
def frameCheck (raw : RawRequest) : Framing :=
  let t := get8 raw.bytes
  let g := get8 t.2
  let n := get16 g.2
  let payload := n.2
  if raw.overlong || decide (raw.bytes.length < 4) || decide (Config.maxPayload < n.1.toNat)
      || n.1.toNat != payload.length then
    .badLength (answerTypeOf t.1) g.1
  else
    match ReqType.ofCode t.1 with
    | none => .badType g.1
    | some ty =>
      match ty.fixedLength with
      | some len => if payload.length = len then .ok ty g.1 payload else .badLength (answerTypeOf t.1) g.1
      | none => if payload.length < 18 then .badLength (answerTypeOf t.1) g.1 else .ok ty g.1 payload

/-- The request command that a type, a tag and a payload make (R200). -/
def decodePayload (ty : ReqType) (tag : Byte) (p : List Byte) : Instr :=
  match ty with
  | .tnow => .tnow tag
  | .tset => .tset tag (TsetReq.decode p)
  | .trole => .trole tag (TroleReq.decode p)
  | .tsync => .tsync tag (TsyncReq.decode p)
  | .tstrobe => .tstrobe tag (TstrobeReq.decode p)
  | .tcaps => .tcaps tag (get8 p).1
  | .tinj => .tinj tag
  | .lcfg => .lcfg tag (LcfgReq.decode p)
  | .lbind => .lbind tag (LbindReq.decode p)
  | .lframe => .lframe tag (LframeReq.decode p)
  | .lgo => .lgo tag (get8 p).1
  | .lhalt => .lhalt tag (LhaltReq.decode p)
  | .lstat => .lstat tag (get8 p).1
  | .lfetch => .lfetch tag (get8 p).1
  | .mgain => .mgain tag (MgainReq.decode p)
  | .mduck => .mduck tag (MduckReq.decode p)
  | .pcfg => .pcfg tag (PcfgReq.decode p)
  | .cset => .cset tag (CsetReq.decode p)
  | .crun => .crun tag (CrunReq.decode p)
  | .gset => .gset tag (GsetReq.decode p)
  | .gread => .gread tag
  | .eread => .eread tag
  | .eclear => .eclear tag (get72 p).1
  | .emask => .emask tag (get72 p).1
  | .xreset => .xreset tag
  | .xident => .xident tag

/-- The command that processing a taken request is: the request it spells, or its framing refusal (R189, R190). -/
def decodeRequest (raw : RawRequest) : Instr :=
  match frameCheck raw with
  | .ok ty tag p => decodePayload ty tag p
  | _ => .framingRefusal raw

/-- The type, tag and payload of a request command; none for a command that is no request. -/
def Instr.request? : Instr → Option (ReqType × Byte × List Byte)
  | .tnow tag => some (.tnow, tag, [])
  | .tset tag r => some (.tset, tag, r.encode)
  | .trole tag r => some (.trole, tag, r.encode)
  | .tsync tag r => some (.tsync, tag, r.encode)
  | .tstrobe tag r => some (.tstrobe, tag, r.encode)
  | .tcaps tag n => some (.tcaps, tag, put8 n)
  | .tinj tag => some (.tinj, tag, [])
  | .lcfg tag r => some (.lcfg, tag, r.encode)
  | .lbind tag r => some (.lbind, tag, r.encode)
  | .lframe tag r => some (.lframe, tag, r.encode)
  | .lgo tag n => some (.lgo, tag, put8 n)
  | .lhalt tag r => some (.lhalt, tag, r.encode)
  | .lstat tag n => some (.lstat, tag, put8 n)
  | .lfetch tag n => some (.lfetch, tag, put8 n)
  | .mgain tag r => some (.mgain, tag, r.encode)
  | .mduck tag r => some (.mduck, tag, r.encode)
  | .pcfg tag r => some (.pcfg, tag, r.encode)
  | .cset tag r => some (.cset, tag, r.encode)
  | .crun tag r => some (.crun, tag, r.encode)
  | .gset tag r => some (.gset, tag, r.encode)
  | .gread tag => some (.gread, tag, [])
  | .eread tag => some (.eread, tag, [])
  | .eclear tag m => some (.eclear, tag, put72 m)
  | .emask tag m => some (.emask, tag, put72 m)
  | .xreset tag => some (.xreset, tag, [])
  | .xident tag => some (.xident, tag, [])
  | .coldReset => none
  | .countStart => none
  | .blockBoundary => none
  | .strobeEdge _ => none
  | .lastAcceptedEdgeExpiry => none
  | .captureEntryExpiry => none
  | .reAnchor => none
  | .holdoverExpiry => none
  | .freerunExpiry => none
  | .chipSelectFall => none
  | .chipSelectRise _ _ => none
  | .framingRefusal _ => none
  | .hangTailEnd _ => none
  | .samplePeriod _ => none
  | .spcSampleComplete => none
  | .inputClockLoss => none
  | .spcWordSelectEdge => none
  | .spcBitTaken _ => none

/-- The bytes of a request with its header (Header and status byte). -/
def encodeMessage (ty : ReqType) (tag : Byte) (payload : List Byte) : List Byte :=
  put8 ty.code ++ put8 tag ++ put16 (BitVec.ofNat 16 payload.length) ++ payload

/-- A request command as the link takes it; the request named by a framing refusal stands for itself, and a command that is no
request has no bytes. -/
def encodeRequest (i : Instr) : RawRequest :=
  match i.request? with
  | some (ty, tag, p) => { bytes := encodeMessage ty tag p, overlong := false }
  | none =>
    match i with
    | .framingRefusal raw => raw
    | _ => { bytes := [], overlong := false }

end Sys2Proof
end

