-- ==== Sys2Proof/Machine/State.lean ====
section
/-! DEFINITION. The state of the part, grouped by owning block, as plain data, with its value after cold reset. Each type names the
rule of spec/ that gives its fields. INVENTORY.md lists every piece. -/

namespace Sys2Proof.Machine

/-- The faults of the part. The spec describes none: a request is refused by an answer (R191), and every other trouble is a flag or
a counter. So no meaning raises a fault. Safe: nothing stops that the part runs. -/
inductive Fault where
  deriving DecidableEq, Repr

/-- The refusals of the model. -/
inductive Refusal where
  /-- A command whose meaning is not modelled: raised by no arm of `exec`. Safe. -/
  | notModelled (mnemonic : String)
  deriving DecidableEq, Repr

/-! ## Collections with a fixed number of like things -/

/-- The six lanes LN0 to LN5 (R45). -/
inductive LaneId where
  | ln0 | ln1 | ln2 | ln3 | ln4 | ln5
  deriving DecidableEq, Repr

/-- One value for each lane. -/
structure LaneMap (α : Type) where
  ln0 : α
  ln1 : α
  ln2 : α
  ln3 : α
  ln4 : α
  ln5 : α
  deriving DecidableEq, Repr

/-- The same value for every lane. -/
def LaneMap.all {α : Type} (v : α) : LaneMap α := ⟨v, v, v, v, v, v⟩

/-- The six general lines GL0 to GL5 (R180). -/
inductive LineId where
  | gl0 | gl1 | gl2 | gl3 | gl4 | gl5
  deriving DecidableEq, Repr

/-- One value for each general line. -/
structure LineMap (α : Type) where
  gl0 : α
  gl1 : α
  gl2 : α
  gl3 : α
  gl4 : α
  gl5 : α
  deriving DecidableEq, Repr

/-- The four cue timers CUE0 to CUE3 (R168). -/
inductive CueId where
  | cue0 | cue1 | cue2 | cue3
  deriving DecidableEq, Repr

/-- One value for each cue timer. -/
structure CueMap (α : Type) where
  cue0 : α
  cue1 : α
  cue2 : α
  cue3 : α
  deriving DecidableEq, Repr

/-- One value for each output port. -/
structure PortPair (α : Type) where
  spa : α
  spb : α
  deriving DecidableEq, Repr

/-! ## Strobe capture (R6 to R11) -/

/-- Strobe polarity (R6). -/
inductive StrobePolarity where
  | rising
  | falling
  deriving DecidableEq, Repr

/-- Where a capture came from (R10). -/
inductive Origin where
  | edge
  | injected
  deriving DecidableEq, Repr

/-- An entry of the capture queue. -/
structure Capture where
  seq : Byte
  time : Time
  origin : Origin
  deriving DecidableEq, Repr

/-- Strobe capture's state (table of the Local Count and Strobe Capture chapter). -/
structure StrobeCapture where
  polarity : StrobePolarity
  latency : BitVec 16
  spacing : BitVec 16
  lastEdge : Option Time
  queue : List Capture
  nextSeq : Byte
  lost : Nat
  deriving DecidableEq, Repr

/-! ## House clock tracker (R18) -/

/-- The tracker's role. -/
inductive Role where
  | follower
  | reference
  deriving DecidableEq, Repr

/-- The tracker's state (table of states). -/
inductive TrackerState where
  | unlocked | acquiring | locked | holdover | freerun | ref
  deriving DecidableEq, Repr

/-- The servo and timer settings (R41). -/
structure TrackerSettings where
  kp : Nat
  ki : Nat
  kia : Nat
  w : Nat
  wacq : Nat
  nout : Nat
  nacq : Nat
  thold : Nat
  tfree : Nat
  deriving DecidableEq, Repr

/-- The tracker record (R18). -/
structure Tracker where
  role : Role
  state : TrackerState
  epoch : Byte
  candidate : Option Byte
  l0 : Time
  h0 : Time
  q : Int
  acquireCount : Nat
  outlierRun : Nat
  lastAccept : Time
  accepted : Nat
  outliers : Nat
  stale : Nat
  settings : TrackerSettings
  deriving DecidableEq, Repr

/-! ## The sample store (R53) -/

/-- The sample store: the words that are not 0, by rising word number; an unlisted word reads 0 (log 28). -/
abbrev Memory := List (Nat × Word)

/-! ## Lanes (R45, R46, R54, R62, R68, R82, R106, R108, R156) -/

/-- A lane's direction. -/
inductive Direction where
  | play
  | capture
  deriving DecidableEq, Repr

/-- A lane's sync policy. -/
inductive SyncPolicy where
  | strict
  | loose
  deriving DecidableEq, Repr

/-- A lane's configuration (R45). Its enable is the lane's state not being OFF (log 10). -/
structure LaneConfig where
  direction : Direction
  firstPage : Byte
  lastPage : Byte
  quota : Nat
  channels : Nat
  policy : SyncPolicy
  leadLimit : Nat
  low : Nat
  high : Nat
  roomOffset : Int
  gs : Nat
  trimMax : Nat
  slipLimit : Nat
  frameSize : Nat
  dataMark : Nat
  inputLatency : Nat
  deriving DecidableEq, Repr

/-- The lane states of both directions (R46), in the order of their codes. -/
inductive LaneState where
  | off | stopped | armed | playing | bridging | starved | held | stopping | drained | running
  deriving DecidableEq, Repr

/-- One allocation of a ring: where it begins, its length in words and whether its frame has been released (R54; log 10). -/
structure Alloc where
  start : Nat
  len : Nat
  released : Bool
  deriving DecidableEq, Repr

/-- The status of a frame record in use (R68); a FREE record is one that stands in no lane (log 9). -/
inductive FrameStatus where
  | queued
  | playing
  | filling
  deriving DecidableEq, Repr

/-- A frame record (R68). Its lane is the lane that holds it. -/
structure FrameRecord where
  status : FrameStatus
  stream : StreamId
  seq : BitVec 16
  epoch : Byte
  pts : Option Time
  samples : Nat
  channels : Nat
  offset : Nat
  disc : Bool
  endMark : Bool
  tag : Option Byte
  deriving DecidableEq, Repr

/-- A pending switch: the stream and the switch time T (R62). -/
structure Switch where
  stream : StreamId
  time : Time
  deriving DecidableEq, Repr

/-- The cursor in the queue head: sample index and fraction in units of 2^-24 sample (R82). -/
structure Cursor where
  index : Nat
  frac : Nat
  deriving DecidableEq, Repr

/-- What a waiting lane aligns to (R82). -/
inductive Aim where
  | absent
  | frame
  | time (t : Time)
  deriving DecidableEq, Repr

/-- The halt choice held until the STOPPING block (R82): whether the fade source is CURSOR, and the flush choice. -/
structure Halt where
  fromCursor : Bool
  flush : Bool
  deriving DecidableEq, Repr

/-- A cue's action at a lane (R103). -/
inductive LaneCueAction where
  | go
  | halt (flush : Bool)
  deriving DecidableEq, Repr

/-- An action record handed to a lane (R103): the cue, the action and the expiry boundary. -/
structure LaneAction where
  cue : CueId
  action : LaneCueAction
  expiry : BlockIndex
  deriving DecidableEq, Repr

/-- The counters of a PLAY lane (R106). -/
structure PlayCounters where
  starts : Nat
  lateDrops : Nat
  gaps : Nat
  overlaps : Nat
  starvations : Nat
  holds : Nat
  slips : Nat
  slipDrops : Nat
  purges : Nat
  deriving DecidableEq, Repr

/-- The counters of a CAPTURE lane (R156). -/
structure CaptureCounters where
  closed : Nat
  overruns : Nat
  discards : Nat
  deriving DecidableEq, Repr

/-- The direction of a slip (R108). -/
inductive SlipMark where
  | behind
  | ahead
  deriving DecidableEq, Repr

/-- The capture frame being filled (R156, R162): its record, the samples written and the first sample's stamp. -/
structure Filling where
  record : FrameRecord
  written : Nat
  first : Time
  deriving DecidableEq, Repr

/-- A lane: configuration, state, ring, binding, queue, playout context, rate context, capture context and its eight event
flags (R45, R54, R62, R72, R82, R108, R156, R193). `flags` is the lane's byte of the event flag layout. -/
structure Lane where
  config : LaneConfig
  state : LaneState
  writeOffset : Nat
  reclaimOffset : Nat
  allocs : List Alloc
  current : Option StreamId
  switch : Option Switch
  queue : List FrameRecord
  cursor : Option Cursor
  aim : Aim
  halt : Option Halt
  actions : List LaneAction
  lastTag : Option Byte
  counters : PlayCounters
  lastError : Option Int
  lastStep : Option Nat
  slipMark : Option SlipMark
  runNumber : BitVec 16
  lastSeq : BitVec 16
  entryTime : Option Time
  filling : Option Filling
  discPending : Bool
  captureCounters : CaptureCounters
  flags : Byte
  deriving DecidableEq, Repr

/-! ## Mixer (R128) -/

/-- A channel map (R129). -/
inductive ChannelMap where
  | stereo | swap | left | right | mono
  deriving DecidableEq, Repr

/-- A lane's routing to one output port: its channel map and its gain ramp (R128). -/
structure Channel where
  map : ChannelMap
  current : Nat
  start : Nat
  target : Nat
  n : Nat
  b : Nat
  deriving DecidableEq, Repr

/-- A gain action record (R133). -/
structure GainAction where
  cue : CueId
  lane : LaneId
  port : OutPort
  gain : Nat
  ramp : Nat
  expiry : BlockIndex
  deriving DecidableEq, Repr

/-- The mixer's state (R128). -/
structure Mixer where
  channels : LaneMap (PortPair Channel)
  duckClass : LaneMap Nat
  duckLevel : LaneMap Nat
  d1 : Nat
  d2 : Nat
  d3 : Nat
  attack : Nat
  release : Nat
  master : PortPair Nat
  clips : PortPair Nat
  actions : List GainAction
  deriving DecidableEq, Repr

/-! ## Serial audio ports (R143) -/

/-- Sample width of a port. -/
inductive Width where
  | w16
  | w24
  deriving DecidableEq, Repr

/-- Word-select polarity. -/
inductive WsPolarity where
  | leftLow
  | leftHigh
  deriving DecidableEq, Repr

/-- Alignment of a value in its slot. -/
inductive Alignment where
  | delayed
  | justified
  deriving DecidableEq, Repr

/-- SPC's clock mode (R150). -/
inductive ClockMode where
  | master
  | slave
  deriving DecidableEq, Repr

/-- Enable and format of a port (R143). -/
structure PortFormat where
  enable : Bool
  width : Width
  polarity : WsPolarity
  alignment : Alignment
  deriving DecidableEq, Repr

/-- A block of 64 sample pairs kept for emission, with the boundary it was formed at (R146). -/
structure EmissionBlock where
  base : Time
  pairs : List (Int × Int)
  deriving DecidableEq, Repr

/-- An output port: its configuration as stored and as seen by the last boundary (log 29), and its emission and activity state. -/
structure OutPortState where
  format : PortFormat
  latency : Nat
  inForce : PortFormat
  emission : List EmissionBlock
  staging : Int × Int
  hang : Nat
  tailEnd : Option Time
  deriving DecidableEq, Repr

/-- The slot of a sample in assembly. -/
inductive Slot where
  | left
  | right
  deriving DecidableEq, Repr

/-- The sample in assembly (R143, R151): its opening edge's local time, the format its sample period began under (R143; log 29), the
slot now open, whether that slot's first bit clock has passed, and the bits of each slot in the order taken. -/
structure Assembly where
  opened : Time
  format : PortFormat
  slot : Slot
  clocked : Bool
  leftBits : List Bool
  rightBits : List Bool
  deriving DecidableEq, Repr

/-- SPC's clock watch (R153). -/
inductive ClockWatch where
  | idle
  | watching (w : Time)
  | lost
  deriving DecidableEq, Repr

/-- The input port. `selectLevel` is the level of word select at the part's last sample of the line, known from the first transition seen
under the present enable and clock mode on (R7, R150; log 12). `selectTaken` and `clockTaken` are the model's own: whether the word-select
transition and the rising edge of the bit clock of the present tick have been taken, since each line has at most one a tick (R150;
log 12). -/
structure InPortState where
  format : PortFormat
  mode : ClockMode
  inForce : PortFormat
  modeInForce : ClockMode
  assembly : Option Assembly
  watch : ClockWatch
  selectLevel : Option Bool
  selectTaken : Bool
  clockTaken : Bool
  deriving DecidableEq, Repr

/-! ## Cue timers and general lines (R168, R180) -/

/-- A cue's mode. -/
inductive CueMode where
  | at
  | every
  | blocks
  deriving DecidableEq, Repr

/-- A cue's action. -/
inductive CueAction where
  | none
  | go (lane : LaneId)
  | halt (lane : LaneId) (flush : Bool)
  | gain (lane : LaneId) (port : OutPort) (gain : Nat) (ramp : Nat)
  deriving DecidableEq, Repr

/-- A cue's report mode. -/
inductive ReportMode where
  | onExpiry
  | afterAction
  deriving DecidableEq, Repr

/-- A cue's line mode. -/
inductive LineMode where
  | pulse
  | toggle
  deriving DecidableEq, Repr

/-- A cue's state (R169). -/
inductive CueState where
  | stopped
  | running
  | expired
  deriving DecidableEq, Repr

/-- A cue's last outcome. -/
inductive CueOutcome where
  | none
  | awaited
  | succeeded
  | failed
  deriving DecidableEq, Repr

/-- The cue record (R168). -/
structure Cue where
  mode : CueMode
  target : Time
  interval : Nat
  reload : Nat
  gate : Option LaneId
  action : CueAction
  report : ReportMode
  line : LineMode
  state : CueState
  count : Nat
  level : Bool
  expiries : Nat
  skipped : Nat
  lastExpiry : Option BlockIndex
  outcome : CueOutcome
  reportDue : Option BlockIndex
  deriving DecidableEq, Repr

/-- The function of a general line (R180). -/
inductive LineFunction where
  | input
  | output
  | cue (c : CueId)
  | cueInverted (c : CueId)
  | lock
  | activeA
  | activeB
  deriving DecidableEq, Repr

/-- A general line: its function and stored output level. -/
structure Line where
  function : LineFunction
  stored : Bool
  deriving DecidableEq, Repr

/-! ## Message link (R184) -/

/-- An answer: its type, its tag and its payload, whose first byte is the result code (R191). -/
structure Answer where
  type : Byte
  tag : Byte
  payload : List Byte
  deriving DecidableEq, Repr

/-- The transaction in progress (R185): the status byte, the head answer and the full verdict fixed at the fall, and whether the
head answer is still in the outbound queue (R186; log 27). -/
structure Transaction where
  status : Byte
  head : Option Answer
  full : Bool
  headLive : Bool
  deriving DecidableEq, Repr

/-- The link's state. The lanes' event flags stand in the lanes; the three other groups stand here, each as its byte of the event
flag layout. -/
structure Link where
  inbound : List RawRequest
  outbound : List Answer
  transaction : Option Transaction
  trackerFlags : Byte
  portFlags : Byte
  cueFlags : Byte
  enables : FlagWord
  deriving DecidableEq, Repr

/-! ## The whole part -/

/-- The state of the part, with the queue of waiting commands. -/
structure State where
  /-- Commands waiting, first in first out (the model's own; log 1). -/
  pending : List Instr
  /-- Whether the local count has started (R3). -/
  running : Bool
  /-- The local count (R3). -/
  count : Time
  /-- The boundary of the present tick has not been taken yet (the model's own; log 11). -/
  boundaryDue : Bool
  /-- The sample periods that begin with the boundary of the present tick are not in the queue yet (the model's own; log 2). -/
  periodsDue : Bool
  /-- Readings of free values so far (the model's own; log 7). -/
  samples : Nat
  strobe : StrobeCapture
  tracker : Tracker
  store : Memory
  lanes : LaneMap Lane
  mixer : Mixer
  ports : PortPair OutPortState
  spc : InPortState
  cues : CueMap Cue
  lines : LineMap Line
  link : Link
  deriving DecidableEq, Repr

/-! ## Reset values -/

/-- Strobe capture after cold reset. -/
def StrobeCapture.reset : StrobeCapture :=
  { polarity := .rising, latency := 0, spacing := 2458, lastEdge := none, queue := [], nextSeq := 0, lost := 0 }

/-- The default tracker settings (R41's table). -/
def TrackerSettings.default : TrackerSettings :=
  { kp := 2, ki := 4, kia := 1, w := 2458, wacq := 24576, nout := 4, nacq := 8, thold := 12288000, tfree := 1474560000 }

/-- The tracker record after cold reset (R18). -/
def Tracker.reset : Tracker :=
  { role := .follower, state := .unlocked, epoch := 0, candidate := none, l0 := 0, h0 := 0, q := 0, acquireCount := 0,
    outlierRun := 0, lastAccept := 0, accepted := 0, outliers := 0, stale := 0, settings := TrackerSettings.default }

/-- A lane's configuration after either reset (R45). -/
def LaneConfig.reset : LaneConfig :=
  { direction := .play, firstPage := 0, lastPage := 0, quota := 1, channels := 2, policy := .strict, leadLimit := 49152000,
    low := 4800, high := 19200, roomOffset := 0, gs := 10, trimMax := 8389, slipLimit := 24576, frameSize := 256,
    dataMark := 4, inputLatency := 0 }

/-- Counters of a PLAY lane at 0. -/
def PlayCounters.zero : PlayCounters :=
  { starts := 0, lateDrops := 0, gaps := 0, overlaps := 0, starvations := 0, holds := 0, slips := 0, slipDrops := 0,
    purges := 0 }

/-- Counters of a CAPTURE lane at 0. -/
def CaptureCounters.zero : CaptureCounters := { closed := 0, overruns := 0, discards := 0 }

/-- A lane after either reset (R61, R82, R108, R156): OFF, empty, its flags clear. -/
def Lane.reset : Lane :=
  { config := LaneConfig.reset, state := .off, writeOffset := 0, reclaimOffset := 0, allocs := [], current := none,
    switch := none, queue := [], cursor := none, aim := .absent, halt := none, actions := [], lastTag := none,
    counters := PlayCounters.zero, lastError := none, lastStep := none, slipMark := none, runNumber := 0, lastSeq := 0,
    entryTime := none, filling := none, discPending := false, captureCounters := CaptureCounters.zero, flags := 0 }

/-- A lane's routing to a port after either reset (R128): STEREO, gain 0, ramp complete. -/
def Channel.reset : Channel := { map := .stereo, current := 0, start := 0, target := 0, n := 1, b := 1 }

/-- The mixer after either reset (R128). -/
def Mixer.reset : Mixer :=
  { channels := LaneMap.all ⟨Channel.reset, Channel.reset⟩, duckClass := LaneMap.all 0,
    duckLevel := LaneMap.all Config.unity, d1 := 16384, d2 := 8192, d3 := 4096, attack := 4, release := 96,
    master := ⟨Config.unity, Config.unity⟩, clips := ⟨0, 0⟩, actions := [] }

/-- A port's format after cold reset (R143). -/
def PortFormat.reset : PortFormat := { enable := false, width := .w24, polarity := .leftLow, alignment := .delayed }

/-- An output port after cold reset (R143). -/
def OutPortState.reset : OutPortState :=
  { format := PortFormat.reset, latency := 0, inForce := PortFormat.reset, emission := [], staging := (0, 0), hang := 0,
    tailEnd := none }

/-- The input port after cold reset (R143). -/
def InPortState.reset : InPortState :=
  { format := PortFormat.reset, mode := .master, inForce := PortFormat.reset, modeInForce := .master, assembly := none,
    watch := .idle, selectLevel := none, selectTaken := false, clockTaken := false }

/-- A cue after either reset (R168). -/
def Cue.reset : Cue :=
  { mode := .at, target := 0, interval := 0, reload := 0, gate := none, action := .none, report := .onExpiry,
    line := .pulse, state := .stopped, count := 0, level := false, expiries := 0, skipped := 0, lastExpiry := none,
    outcome := .none, reportDue := none }

/-- A general line after cold reset (R180). -/
def Line.reset : Line := { function := .input, stored := false }

/-- The link after cold reset (R184): everything empty and clear, every enable off but BOOT's. -/
def Link.reset : Link :=
  { inbound := [], outbound := [], transaction := none, trackerFlags := 0, portFlags := 0, cueFlags := 0,
    enables := 0x010000000000000000 }

/-- The part after cold reset (R199): the count held at 0, every piece of state at its cold value, nothing waiting. -/
def State.reset : State :=
  { pending := [], running := false, count := 0, boundaryDue := false, periodsDue := false, samples := 0, strobe := StrobeCapture.reset,
    tracker := Tracker.reset, store := [], lanes := LaneMap.all Lane.reset, mixer := Mixer.reset,
    ports := ⟨OutPortState.reset, OutPortState.reset⟩, spc := InPortState.reset, cues := ⟨Cue.reset, Cue.reset, Cue.reset, Cue.reset⟩,
    lines := ⟨Line.reset, Line.reset, Line.reset, Line.reset, Line.reset, Line.reset⟩, link := Link.reset }

end Sys2Proof.Machine
end

