-- ==== Sys2Proof/Machine/Ops.lean ====
section
/-! DEFINITION. Named operations: times and roundings (R1, R2), the collections, the sample store (R53), a lane's ring (R54 to R56),
its queue and buffered count (R58, R71, R72), and the rate-corrected house time (R19). -/

namespace Sys2Proof.Machine

/-! ## Times and roundings (R1, R2) -/

/-- The signed difference of two times (R1). -/
def sdiff (a b : Time) : Int := (a - b).toInt

/-- `a` is later than `b` (R1). -/
def later (a b : Time) : Bool := decide (0 < sdiff a b)

/-- `a` is earlier than `b` (R1). -/
def earlier (a b : Time) : Bool := decide (sdiff a b < 0)

/-- `a` is not earlier than `b` (R1). -/
def notEarlier (a b : Time) : Bool := decide (0 ≤ sdiff a b)

/-- A time plus a signed number of ticks, modulo 2^48 (R1). -/
def addTicks (t : Time) (d : Int) : Time := t + BitVec.ofInt 48 d

/-- Round a quotient to the nearest integer, an exact half toward positive infinity (R2). The divisor is positive. -/
def roundDiv (a b : Int) : Int := (2 * a + b) / (2 * b)

/-- The quotient rounded toward positive infinity (R2). The divisor is positive. -/
def ceilDiv (a b : Int) : Int := -((-a) / b)

/-- Limit to a range (R2). -/
def clampInt (lo hi x : Int) : Int := max lo (min hi x)

/-- Limit a count to a range (R2). -/
def clampNat (lo hi x : Nat) : Nat := max lo (min hi x)

/-- The 16-bit saturating increment of the counters. -/
def satInc (n : Nat) : Nat := min (n + 1) 65535

/-- The 16-bit saturating sum of the counters. -/
def satAdd (n m : Nat) : Nat := min (n + m) 65535

/-- The block index at a local time (R4): the count divided by 32,768, remainder dropped. -/
def blockIndex (t : Time) : BlockIndex := t.extractLsb' 15 33

/-- The local time of a boundary, k × 32,768 (R4). -/
def boundaryTime (k : BlockIndex) : Time := k ++ (0 : BitVec 15)

/-- A local time on the grid of `n` ticks. -/
def onGrid (t : Time) (n : Nat) : Bool := t.toNat % n == 0

/-! ## Collections -/

/-- A lane's value. -/
def LaneMap.get {α : Type} (m : LaneMap α) : LaneId → α
  | .ln0 => m.ln0
  | .ln1 => m.ln1
  | .ln2 => m.ln2
  | .ln3 => m.ln3
  | .ln4 => m.ln4
  | .ln5 => m.ln5

/-- Replace one lane's value. -/
def LaneMap.set {α : Type} (m : LaneMap α) (i : LaneId) (v : α) : LaneMap α :=
  match i with
  | .ln0 => { m with ln0 := v }
  | .ln1 => { m with ln1 := v }
  | .ln2 => { m with ln2 := v }
  | .ln3 => { m with ln3 := v }
  | .ln4 => { m with ln4 := v }
  | .ln5 => { m with ln5 := v }

/-- A value for each lane from its number and its old value. -/
def LaneMap.mapId {α β : Type} (f : LaneId → α → β) (m : LaneMap α) : LaneMap β :=
  ⟨f .ln0 m.ln0, f .ln1 m.ln1, f .ln2 m.ln2, f .ln3 m.ln3, f .ln4 m.ln4, f .ln5 m.ln5⟩

/-- The values in lane order. -/
def LaneMap.toList {α : Type} (m : LaneMap α) : List α := [m.ln0, m.ln1, m.ln2, m.ln3, m.ln4, m.ln5]

/-- The six lanes in order. -/
def LaneId.list : List LaneId := [.ln0, .ln1, .ln2, .ln3, .ln4, .ln5]

/-- A lane's number. -/
def LaneId.num : LaneId → Nat
  | .ln0 => 0
  | .ln1 => 1
  | .ln2 => 2
  | .ln3 => 3
  | .ln4 => 4
  | .ln5 => 5

/-- A line's value. -/
def LineMap.get {α : Type} (m : LineMap α) : LineId → α
  | .gl0 => m.gl0
  | .gl1 => m.gl1
  | .gl2 => m.gl2
  | .gl3 => m.gl3
  | .gl4 => m.gl4
  | .gl5 => m.gl5

/-- Replace one line's value. -/
def LineMap.set {α : Type} (m : LineMap α) (i : LineId) (v : α) : LineMap α :=
  match i with
  | .gl0 => { m with gl0 := v }
  | .gl1 => { m with gl1 := v }
  | .gl2 => { m with gl2 := v }
  | .gl3 => { m with gl3 := v }
  | .gl4 => { m with gl4 := v }
  | .gl5 => { m with gl5 := v }

/-- The six lines in order. -/
def LineId.list : List LineId := [.gl0, .gl1, .gl2, .gl3, .gl4, .gl5]

/-- A line's number. -/
def LineId.num : LineId → Nat
  | .gl0 => 0
  | .gl1 => 1
  | .gl2 => 2
  | .gl3 => 3
  | .gl4 => 4
  | .gl5 => 5

/-- A cue's value. -/
def CueMap.get {α : Type} (m : CueMap α) : CueId → α
  | .cue0 => m.cue0
  | .cue1 => m.cue1
  | .cue2 => m.cue2
  | .cue3 => m.cue3

/-- Replace one cue's value. -/
def CueMap.set {α : Type} (m : CueMap α) (i : CueId) (v : α) : CueMap α :=
  match i with
  | .cue0 => { m with cue0 := v }
  | .cue1 => { m with cue1 := v }
  | .cue2 => { m with cue2 := v }
  | .cue3 => { m with cue3 := v }

/-- A cue's number. -/
def CueId.num : CueId → Nat
  | .cue0 => 0
  | .cue1 => 1
  | .cue2 => 2
  | .cue3 => 3

/-- A port's value. -/
def PortPair.get {α : Type} (m : PortPair α) : OutPort → α
  | .spa => m.spa
  | .spb => m.spb

/-- Replace one port's value. -/
def PortPair.set {α : Type} (m : PortPair α) (p : OutPort) (v : α) : PortPair α :=
  match p with
  | .spa => { m with spa := v }
  | .spb => { m with spb := v }

/-! ## The sample store (R53) -/

/-- The word at a word number: 0 where none is listed. -/
def Memory.read : Memory → Nat → Word
  | [], _ => 0
  | (b, w) :: rest, a => if a = b then w else if a < b then 0 else Memory.read rest a

/-- Write one word, keeping the canonical form: writing 0 removes the entry. -/
def Memory.write : Memory → Nat → Word → Memory
  | [], a, w => if w = 0 then [] else [(a, w)]
  | (b, v) :: rest, a, w =>
    if a < b then (if w = 0 then (b, v) :: rest else (a, w) :: (b, v) :: rest)
    else if a = b then (if w = 0 then rest else (a, w) :: rest)
    else (b, v) :: Memory.write rest a w

/-- The canonical form above a word number: word numbers strictly rise from `lo` on and no listed word is 0. -/
def Memory.wfFrom (lo : Nat) : Memory → Bool
  | [] => true
  | (b, v) :: rest => decide (lo ≤ b) && v != 0 && Memory.wfFrom (b + 1) rest

/-- The canonical form of the store. -/
def Memory.wf (m : Memory) : Bool := Memory.wfFrom 0 m

/-- The sample in a word (R53). -/
def wordSample (w : Word) : Int := w.toInt

/-- A sample as a sign-extended word (R53). -/
def sampleWord (x : Int) : Word := BitVec.ofInt 32 x

/-! ## House time (R19) -/

/-- H(L) by the anchors and the rate correction (R19). -/
def Tracker.estimate (t : Tracker) (l : Time) : Time :=
  let d := sdiff l t.l0
  addTicks t.h0 (d + roundDiv (d * t.q) (2 ^ 32))

/-- H(L), where it is defined: in every state but UNLOCKED (R19). -/
def Tracker.house? (t : Tracker) (l : Time) : Option Time :=
  if t.state = .unlocked then none else some (t.estimate l)

/-! ## A lane's region and ring (R45, R54 to R56) -/

/-- A lane's region size in words (R54). -/
def LaneConfig.regionSize (c : LaneConfig) : Nat := (c.lastPage.toNat - c.firstPage.toNat + 1) * Config.pageWords

/-- A lane's region capacity in samples per channel (R45). -/
def LaneConfig.capacity (c : LaneConfig) : Nat := c.regionSize / c.channels

/-- The number in the store of the word at a ring offset, wrapping at the region's end (R55). -/
def LaneConfig.wordAt (c : LaneConfig) (offset : Nat) : Nat :=
  c.firstPage.toNat * Config.pageWords + offset % c.regionSize

/-- A ring's fill: the sum of its allocations' lengths (R54). -/
def Lane.fill (l : Lane) : Nat := (l.allocs.map Alloc.len).sum

/-- A ring's free space (R54). -/
def Lane.free (l : Lane) : Nat := l.config.regionSize - l.fill

/-- Make an allocation of `w` words at the write offset (R55). The room test is the caller's. -/
def Lane.allocate (l : Lane) (w : Nat) : Lane :=
  { l with
    writeOffset := (l.writeOffset + w) % l.config.regionSize
    allocs := l.allocs ++ [{ start := l.writeOffset, len := w, released := false }] }

/-- Reclaim from the oldest end while the oldest allocation is released (R56). -/
def reclaimFrom (size : Nat) : List Alloc → Nat → List Alloc × Nat
  | [], r => ([], r)
  | a :: rest, r => if a.released then reclaimFrom size rest ((r + a.len) % size) else (a :: rest, r)

/-- Mark the allocation that begins at an offset released, and reclaim what that frees (R56). -/
def Lane.releaseAlloc (l : Lane) (offset : Nat) : Lane :=
  let marked := l.allocs.map (fun a => if a.start = offset then { a with released := true } else a)
  let r := reclaimFrom l.config.regionSize marked l.reclaimOffset
  { l with allocs := r.1, reclaimOffset := r.2 }

/-! ## Frames and queues (R58, R68, R71, R72) -/

/-- A frame's pts as a time. Every playback frame has one (R68). -/
def FrameRecord.time (f : FrameRecord) : Time := f.pts.getD 0

/-- The ticks of content a number of samples spans. -/
def sampleSpan (n : Nat) : Int := 512 * (n : Int)

/-- A frame's end time (R68). -/
def FrameRecord.endTime (f : FrameRecord) : Time := addTicks f.time (sampleSpan f.samples)

/-- The words a frame occupies (R68). -/
def FrameRecord.words (f : FrameRecord) : Nat := f.samples * f.channels

/-- The samples a queued record still counts, with the cursor at `index` (R58). -/
def FrameRecord.counted (index : Nat) (f : FrameRecord) : Nat :=
  if f.status = .playing then f.samples - index else f.samples

/-- The cursor index, 0 where there is none. -/
def Lane.cursorIndex (l : Lane) : Nat :=
  match l.cursor with
  | none => 0
  | some c => c.index

/-- The buffered count (R58). -/
def Lane.buffered (l : Lane) : Nat := (l.queue.map (FrameRecord.counted l.cursorIndex)).sum

/-- The frame records a lane holds: its queue, and its frame being filled (R70, R156). -/
def Lane.held (l : Lane) : Nat := l.queue.length + (if l.filling.isSome then 1 else 0)

/-- Release the head of the queue (R71). -/
def Lane.releaseHead (l : Lane) : Lane :=
  match l.queue with
  | [] => l
  | f :: rest =>
    { l.releaseAlloc f.offset with
      queue := rest
      cursor := if f.status = .playing then none else l.cursor }

/-- Release every queued record that a test names, wherever it stands in the queue (R71, R72). -/
def Lane.releaseWhere (l : Lane) (p : FrameRecord → Bool) : Lane :=
  let gone := l.queue.filter p
  let freed := gone.foldl (fun m f => m.releaseAlloc f.offset) l
  { freed with
    queue := l.queue.filter (fun f => !p f)
    cursor := if gone.any (fun f => f.status == .playing) then none else l.cursor }

/-- Insert a record after the last record whose pts is earlier than its own (R72). -/
def insertByTime (f : FrameRecord) : List FrameRecord → List FrameRecord
  | [] => [f]
  | g :: rest =>
    if (g :: rest).any (fun r => earlier r.time f.time) then g :: insertByTime f rest else f :: g :: rest

/-- The content time of a cursor in a frame (R82, R110). -/
def cursorTime (f : FrameRecord) (c : Cursor) : Time :=
  addTicks f.time (sampleSpan c.index + ((c.frac / 2 ^ 15 : Nat) : Int))

/-- The content time of the lane's cursor, where it has one. -/
def Lane.cursorContent (l : Lane) : Option Time :=
  match l.cursor, l.queue with
  | some c, f :: _ => some (cursorTime f c)
  | _, _ => none

/-- Enabled: not OFF (R46). -/
def Lane.enabled (l : Lane) : Bool := l.state != .off

/-- An enabled PLAY lane. -/
def Lane.isPlay (l : Lane) : Bool := l.enabled && l.config.direction == .play

/-- A CAPTURE lane in RUNNING. -/
def Lane.isRunning (l : Lane) : Bool := l.config.direction == .capture && l.state == .running

/-- Replace one lane of the part. -/
def State.setLane (s : State) (i : LaneId) (l : Lane) : State := { s with lanes := s.lanes.set i l }

end Sys2Proof.Machine
end

