-- ==== Sys2Proof/Machine/Flags.lean ====
section
/-! DEFINITION. The event flags: their names, their places in the nine-byte layout (spec/12_message_formats.md), setting, reading and
clearing them (R193 to R196), the watermark flags (R60), and the ATTN condition (R192). -/

namespace Sys2Proof.Machine

/-- The flags of the tracker and part group, byte 0. -/
inductive TrackerFlag where
  | locked | unlock | hold | free | step | epoch | capLost | boot
  deriving DecidableEq, Repr

/-- A lane's eight flag positions; the first two are DATA and OVERRUN on a CAPTURE lane. -/
inductive LaneFlag where
  | start | starved | drained | low | high | slip | tag | held
  deriving DecidableEq, Repr

/-- The flags of the port group, byte 7. -/
inductive PortFlag where
  | clipA | clipB | inClk
  deriving DecidableEq, Repr

/-- The flags of the cue group, byte 8. -/
inductive CueFlag where
  | fired (c : CueId)
  | fail (c : CueId)
  deriving DecidableEq, Repr

/-- A flag's bit in byte 0. -/
def TrackerFlag.bit : TrackerFlag → Nat
  | .locked => 7
  | .unlock => 6
  | .hold => 5
  | .free => 4
  | .step => 3
  | .epoch => 2
  | .capLost => 1
  | .boot => 0

/-- A flag's bit in its lane's byte. -/
def LaneFlag.bit : LaneFlag → Nat
  | .start => 7
  | .starved => 6
  | .drained => 5
  | .low => 4
  | .high => 3
  | .slip => 2
  | .tag => 1
  | .held => 0

/-- A CAPTURE lane's DATA flag has the position of START (R167). -/
def LaneFlag.data : LaneFlag := .start

/-- A CAPTURE lane's OVERRUN flag has the position of STARVED (R167). -/
def LaneFlag.overrun : LaneFlag := .starved

/-- A flag's bit in byte 7. -/
def PortFlag.bit : PortFlag → Nat
  | .clipA => 7
  | .clipB => 6
  | .inClk => 5

/-- A flag's bit in byte 8. -/
def CueFlag.bit : CueFlag → Nat
  | .fired c => 7 - c.num
  | .fail c => 3 - c.num

/-- The bit of a byte alone. -/
def bitMask (n : Nat) : Byte := BitVec.ofNat 8 (2 ^ n)

/-- Any flag of the part. -/
inductive Flag where
  | tracker (f : TrackerFlag)
  | lane (l : LaneId) (f : LaneFlag)
  | port (f : PortFlag)
  | cue (f : CueFlag)
  deriving DecidableEq, Repr

/-- A flag's place in the flag word: byte 0 is the most significant byte (Event flag layout). -/
def Flag.place : Flag → Nat
  | .tracker f => 64 + f.bit
  | .lane l f => 8 * (7 - l.num) + f.bit
  | .port f => 8 + f.bit
  | .cue f => f.bit

/-- The positions that hold a flag; bits 4 to 0 of byte 7 hold none (R195). -/
def flagPositions : FlagWord := 0xFFFFFFFFFFFFFFE0FF

/-- Set a lane's flag (R193). -/
def Lane.raise (l : Lane) (f : LaneFlag) : Lane := { l with flags := l.flags ||| bitMask f.bit }

/-- Set a flag of the tracker and part group (R193). -/
def State.raiseTracker (s : State) (f : TrackerFlag) : State :=
  { s with link := { s.link with trackerFlags := s.link.trackerFlags ||| bitMask f.bit } }

/-- Set a flag of the port group (R193). -/
def State.raisePort (s : State) (f : PortFlag) : State :=
  { s with link := { s.link with portFlags := s.link.portFlags ||| bitMask f.bit } }

/-- Set a flag of the cue group (R193). -/
def State.raiseCue (s : State) (f : CueFlag) : State :=
  { s with link := { s.link with cueFlags := s.link.cueFlags ||| bitMask f.bit } }

/-- Every event flag in the nine-byte layout (R194). -/
def State.flagWord (s : State) : FlagWord :=
  s.link.trackerFlags ++ (s.lanes.ln0.flags ++ (s.lanes.ln1.flags ++ (s.lanes.ln2.flags ++ (s.lanes.ln3.flags ++
    (s.lanes.ln4.flags ++ (s.lanes.ln5.flags ++ (s.link.portFlags ++ s.link.cueFlags)))))))

/-- Whether a flag is set. -/
def State.flag (s : State) (f : Flag) : Bool := s.flagWord.getLsbD f.place

/-- Whether a flag's enable is on. -/
def State.flagEnabled (s : State) (f : Flag) : Bool := s.link.enables.getLsbD f.place

/-- Byte `n` of a flag word (n from 0, the most significant). -/
def flagByte (w : FlagWord) (n : Nat) : Byte := w.extractLsb' (8 * (8 - n)) 8

/-- Clear every flag a mask names (R195). -/
def State.clearFlags (s : State) (mask : FlagWord) : State :=
  { s with
    lanes := s.lanes.mapId (fun i l => { l with flags := l.flags &&& ~~~ (flagByte mask (1 + i.num)) })
    link := { s.link with
      trackerFlags := s.link.trackerFlags &&& ~~~ (flagByte mask 0)
      portFlags := s.link.portFlags &&& ~~~ (flagByte mask 7)
      cueFlags := s.link.cueFlags &&& ~~~ (flagByte mask 8) } }

/-- ATTN (R192): an answer is queued, or a flag is set whose enable is on. -/
def State.attn (s : State) : Bool := !s.link.outbound.isEmpty || (s.flagWord &&& s.link.enables) != 0

/-- The watermark check of a PLAY lane's buffered count after a change from `before` (R60). -/
def Lane.watermark (l : Lane) (before : Nat) : Lane :=
  if l.config.direction = .play then
    let low := decide (l.config.low ≤ before) && decide (l.buffered < l.config.low)
    let high := decide (before ≤ l.config.high) && decide (l.config.high < l.buffered)
    let l1 := if low then l.raise .low else l
    if high then l1.raise .high else l1
  else l

end Sys2Proof.Machine
end

