-- ==== Sys2Proof/Machine/Operands.lean ====
section
/-! DEFINITION. The operand codes of requests and answers (R200, Type codes and result codes), the result codes, and the fields of
answers (R201). A value outside its list has no meaning: the reader answers none and the owner refuses with E_RANGE. -/

namespace Sys2Proof.Machine

/-! ## Result codes -/

/-- The result codes (R191). -/
inductive ResultCode where
  | accepted | adjusted | eLen | eType | eRange | eState | eRole | eNocap | eStale | eNolane | eBound | eSwitch | eEpoch
  | eLate | eEarly | eDup | eOrder | eQuota | eRoom | eOverlap | eNorec
  deriving DecidableEq, Repr

/-- A result code's value. -/
def ResultCode.code : ResultCode → Byte
  | .accepted => 0x00
  | .adjusted => 0x01
  | .eLen => 0x10
  | .eType => 0x11
  | .eRange => 0x12
  | .eState => 0x13
  | .eRole => 0x20
  | .eNocap => 0x21
  | .eStale => 0x22
  | .eNolane => 0x30
  | .eBound => 0x31
  | .eSwitch => 0x32
  | .eEpoch => 0x33
  | .eLate => 0x34
  | .eEarly => 0x35
  | .eDup => 0x36
  | .eOrder => 0x37
  | .eQuota => 0x38
  | .eRoom => 0x39
  | .eOverlap => 0x3A
  | .eNorec => 0x3B

/-- The payload of a refusal: its code alone (R191). -/
def refuse (c : ResultCode) : List Byte := [c.code]

/-- The payload of an answer with fields: ACCEPTED, or ADJUSTED when a value was clamped (R191). -/
def accept (fields : List Byte) : List Byte := ResultCode.accepted.code :: fields

/-- The payload of an answer that may have clamped (R191). -/
def acceptOr (adjusted : Bool) (fields : List Byte) : List Byte :=
  (if adjusted then ResultCode.adjusted.code else ResultCode.accepted.code) :: fields

/-! ## Reading codes -/

/-- off/no/low and on/yes/high. -/
def readBool (b : Byte) : Option Bool := if b = 0 then some false else if b = 1 then some true else none

/-- A presence byte and the field behind it (R200). -/
def readOpt {α : Type} (p : Byte) (v : α) : Option (Option α) :=
  if p = 0 then some none else if p = 1 then some (some v) else none

/-- A lane number 0 to 5. -/
def readLane (b : Byte) : Option LaneId :=
  match b.toNat with
  | 0 => some .ln0
  | 1 => some .ln1
  | 2 => some .ln2
  | 3 => some .ln3
  | 4 => some .ln4
  | 5 => some .ln5
  | _ => none

/-- A line number 0 to 5. -/
def readLine (b : Byte) : Option LineId :=
  match b.toNat with
  | 0 => some .gl0
  | 1 => some .gl1
  | 2 => some .gl2
  | 3 => some .gl3
  | 4 => some .gl4
  | 5 => some .gl5
  | _ => none

/-- A cue number 0 to 3. -/
def readCue (b : Byte) : Option CueId :=
  match b.toNat with
  | 0 => some .cue0
  | 1 => some .cue1
  | 2 => some .cue2
  | 3 => some .cue3
  | _ => none

/-- A gate byte: a lane, or 0xFF for none (R200). -/
def readGate (b : Byte) : Option (Option LaneId) := if b = 0xFF then some none else (readLane b).map some

/-- An output port code. -/
def readOutPort (b : Byte) : Option OutPort := if b = 0 then some .spa else if b = 1 then some .spb else none

/-- A role code. -/
def readRole (b : Byte) : Option Role := if b = 0 then some .follower else if b = 1 then some .reference else none

/-- A strobe polarity code. -/
def readPolarity (b : Byte) : Option StrobePolarity := if b = 0 then some .rising else if b = 1 then some .falling else none

/-- A direction code. -/
def readDirection (b : Byte) : Option Direction := if b = 0 then some .play else if b = 1 then some .capture else none

/-- A sync policy code. -/
def readPolicy (b : Byte) : Option SyncPolicy := if b = 0 then some .strict else if b = 1 then some .loose else none

/-- A channel map code. -/
def readMap (b : Byte) : Option ChannelMap :=
  match b.toNat with
  | 0 => some .stereo
  | 1 => some .swap
  | 2 => some .left
  | 3 => some .right
  | 4 => some .mono
  | _ => none

/-- A width, carried as the value 16 or 24. -/
def readWidth (b : Byte) : Option Width := if b = 16 then some .w16 else if b = 24 then some .w24 else none

/-- A word-select polarity code. -/
def readWsPolarity (b : Byte) : Option WsPolarity := if b = 0 then some .leftLow else if b = 1 then some .leftHigh else none

/-- An alignment code. -/
def readAlignment (b : Byte) : Option Alignment := if b = 0 then some .delayed else if b = 1 then some .justified else none

/-- A clock mode code. -/
def readClockMode (b : Byte) : Option ClockMode := if b = 0 then some .master else if b = 1 then some .slave else none

/-- A cue mode code. -/
def readCueMode (b : Byte) : Option CueMode :=
  if b = 0 then some .at else if b = 1 then some .every else if b = 2 then some .blocks else none

/-- A report mode code. -/
def readReport (b : Byte) : Option ReportMode := if b = 0 then some .onExpiry else if b = 1 then some .afterAction else none

/-- A line mode code. -/
def readLineMode (b : Byte) : Option LineMode := if b = 0 then some .pulse else if b = 1 then some .toggle else none

/-- A line function code with its cue number (R182). -/
def readFunction (f c : Byte) : Option LineFunction :=
  match f.toNat with
  | 0 => some .input
  | 1 => some .output
  | 2 => (readCue c).map .cue
  | 3 => (readCue c).map .cueInverted
  | 4 => some .lock
  | 5 => some .activeA
  | 6 => some .activeB
  | _ => none

/-! ## Writing codes and fields (R201) -/

/-- A number in one byte. -/
def nat8 (n : Nat) : List Byte := put8 (BitVec.ofNat 8 n)

/-- A number in two bytes. -/
def nat16 (n : Nat) : List Byte := put16 (BitVec.ofNat 16 n)

/-- A number in four bytes. -/
def nat32 (n : Nat) : List Byte := put32 (BitVec.ofNat 32 n)

/-- A number in six bytes. -/
def nat48 (n : Nat) : List Byte := put48 (BitVec.ofNat 48 n)

/-- A signed number in four bytes, two's complement. -/
def int32 (x : Int) : List Byte := put32 (BitVec.ofInt 32 x)

/-- A signed number in six bytes, two's complement. -/
def int48 (x : Int) : List Byte := put48 (BitVec.ofInt 48 x)

/-- off/no/low as 0, on/yes/high as 1. -/
def bool8 (b : Bool) : List Byte := [if b then 1 else 0]

/-- An optional field: presence 1 and the field, or presence 0 and `width` bytes of 0 (R201). -/
def optField {α : Type} (width : Nat) (enc : α → List Byte) : Option α → List Byte
  | none => 0 :: List.replicate width 0
  | some v => 1 :: enc v

/-- Tracker state codes. -/
def TrackerState.code : TrackerState → Byte
  | .unlocked => 0
  | .acquiring => 1
  | .locked => 2
  | .holdover => 3
  | .freerun => 4
  | .ref => 5

/-- Role codes. -/
def Role.code : Role → Byte
  | .follower => 0
  | .reference => 1

/-- Pair outcomes (R34). -/
inductive PairOutcome where
  | stepped | acquired | locked | tracked | outlier | pending
  deriving DecidableEq, Repr

/-- Pair outcome codes. -/
def PairOutcome.code : PairOutcome → Byte
  | .stepped => 0
  | .acquired => 1
  | .locked => 2
  | .tracked => 3
  | .outlier => 4
  | .pending => 5

/-- Capture origin codes. -/
def Origin.code : Origin → Byte
  | .edge => 0
  | .injected => 1

/-- Strobe polarity codes. -/
def StrobePolarity.code : StrobePolarity → Byte
  | .rising => 0
  | .falling => 1

/-- Lane state codes. -/
def LaneState.code : LaneState → Byte
  | .off => 0
  | .stopped => 1
  | .armed => 2
  | .playing => 3
  | .bridging => 4
  | .starved => 5
  | .held => 6
  | .stopping => 7
  | .drained => 8
  | .running => 9

/-- Direction codes. -/
def Direction.code : Direction → Byte
  | .play => 0
  | .capture => 1

/-- Sync policy codes. -/
def SyncPolicy.code : SyncPolicy → Byte
  | .strict => 0
  | .loose => 1

/-- Output port codes. -/
def outPortCode : OutPort → Byte
  | .spa => 0
  | .spb => 1

/-- Channel map codes. -/
def ChannelMap.code : ChannelMap → Byte
  | .stereo => 0
  | .swap => 1
  | .left => 2
  | .right => 3
  | .mono => 4

/-- Width codes, carried as the values 16 and 24. -/
def Width.code : Width → Byte
  | .w16 => 16
  | .w24 => 24

/-- Word-select polarity codes. -/
def WsPolarity.code : WsPolarity → Byte
  | .leftLow => 0
  | .leftHigh => 1

/-- Alignment codes. -/
def Alignment.code : Alignment → Byte
  | .delayed => 0
  | .justified => 1

/-- Clock mode codes. -/
def ClockMode.code : ClockMode → Byte
  | .master => 0
  | .slave => 1

/-- Clock watch codes. -/
def ClockWatch.code : ClockWatch → Byte
  | .idle => 0
  | .watching _ => 1
  | .lost => 2

/-- Cue mode codes. -/
def CueMode.code : CueMode → Byte
  | .at => 0
  | .every => 1
  | .blocks => 2

/-- Report mode codes. -/
def ReportMode.code : ReportMode → Byte
  | .onExpiry => 0
  | .afterAction => 1

/-- Line mode codes. -/
def LineMode.code : LineMode → Byte
  | .pulse => 0
  | .toggle => 1

/-- Cue state codes. -/
def CueState.code : CueState → Byte
  | .stopped => 0
  | .running => 1
  | .expired => 2

/-- Cue outcome codes. -/
def CueOutcome.code : CueOutcome → Byte
  | .none => 0
  | .awaited => 1
  | .succeeded => 2
  | .failed => 3

/-- Line function codes. -/
def LineFunction.code : LineFunction → Byte
  | .input => 0
  | .output => 1
  | .cue _ => 2
  | .cueInverted _ => 3
  | .lock => 4
  | .activeA => 5
  | .activeB => 6

/-- The cue number a line function carries; 0 for every other function (R182). -/
def LineFunction.cueNum : LineFunction → Nat
  | .cue c => c.num
  | .cueInverted c => c.num
  | .input => 0
  | .output => 0
  | .lock => 0
  | .activeA => 0
  | .activeB => 0

/-- A gate byte. -/
def gateCode : Option LaneId → List Byte
  | none => [0xFF]
  | some l => nat8 l.num

end Sys2Proof.Machine
end

