-- ==== Sys2Proof/Machine/Link.lean ====
section
/-! DEFINITION. The message link: posting answers, the processing of a request and its stall, transactions, framing refusals, the
requests on event flags and XIDENT (R184 to R197, R200, R201). -/

namespace Sys2Proof.Machine

/-- What a command of the part answers. -/
abbrev Result := Host.Outcome State Fault Refusal

/-- The bytes of an answer: header, then payload (Header and status byte). -/
def Answer.bytes (a : Answer) : List Byte :=
  put8 a.type ++ put8 a.tag ++ put16 (BitVec.ofNat 16 a.payload.length) ++ a.payload

/-- Post an answer at the newest end of the outbound queue (R189). -/
def State.postAnswer (s : State) (a : Answer) : State :=
  { s with link := { s.link with outbound := s.link.outbound ++ [a] } }

/-- Post the answer to a request: its type with 0x80 added, its tag, the payload (R191). -/
def State.post (s : State) (ty : ReqType) (tag : Byte) (payload : List Byte) : State :=
  s.postAnswer { type := ty.code + 0x80, tag := tag, payload := payload }

/-- The outbound queue has a place for an answer (R189). -/
def State.canAnswer (s : State) : Bool := decide (s.link.outbound.length < Config.outboundAnswers)

/-- A request that arrives now can be processed now: no older request waits in the inbound buffer, and the outbound queue has a place
(R189). -/
def State.canServe (s : State) : Bool := s.link.inbound.isEmpty && s.canAnswer

/-- The free inbound slots (R185). -/
def State.freeSlots (s : State) : Nat := Config.inboundSlots - s.link.inbound.length

/-- The inbound slots that the transaction in progress will find free at its rise, its verdict being OPEN (R187). -/
def State.promisedSlots (s : State) : Nat :=
  match s.link.transaction with
  | none => 0
  | some t => if t.full then 0 else 1

/-- A request that cannot be processed waits in an inbound slot, behind those that wait already; with every slot occupied or promised to
the transaction in progress it is discarded (R187, R189; log 4). -/
def State.stall (s : State) (raw : RawRequest) : State :=
  if s.freeSlots ≤ s.promisedSlots then s else { s with link := { s.link with inbound := s.link.inbound ++ [raw] } }

/-- The processing of a request by its owner (R189): the owner acts and forms the answer's payload, then the answer is posted.
While an older request waits or the outbound queue is full, the request waits in its turn; before the count has started the link serves
nothing (R188). -/
def State.serve (s : State) (i : Instr) (owner : State → State × List Byte) : State :=
  match i.request? with
  | none => s
  | some (ty, tag, _) =>
    if s.running then
      if s.canServe then (owner s).1.post ty tag (owner s).2 else s.stall (encodeRequest i)
    else s

/-! ## Transactions (R185 to R188) -/

/-- The link status byte (Header and status byte). -/
def State.statusByte (s : State) : Byte :=
  (if s.attn then 0x80 else 0) ||| (BitVec.ofNat 8 s.freeSlots <<< 4) ||| BitVec.ofNat 8 (min s.link.outbound.length 15)

/-- What the link fixes at the fall of chip select (R185). -/
def State.openTransaction (s : State) : Transaction :=
  { status := s.statusByte, head := s.link.outbound.head?, full := decide (s.freeSlots = 0),
    headLive := !s.link.outbound.isEmpty }

/-- CHIP_SELECT_FALL (R185): the status snapshot, the head answer and the full verdict are fixed. Before the count has started the
transaction is ignored whole (R188); a fall within a transaction is none (log 27). -/
def execChipSelectFall (s : State) : Result :=
  .next (
    if !s.running || s.link.transaction.isSome then s
    else { s with link := { s.link with transaction := some s.openTransaction } })

/-- The byte on MISO at a place of the transaction in progress: the status byte, the head answer's bytes, then 0 (R185). -/
def State.misoByte (s : State) (n : Nat) : Byte :=
  match s.link.transaction with
  | none => 0
  | some t =>
    match n with
    | 0 => t.status
    | m + 1 =>
      match t.head with
      | none => 0
      | some a => a.bytes.getD m 0

/-- The head answer was clocked out completely: the status byte and every byte of it crossed MISO (R186). -/
def Transaction.clockedOut (t : Transaction) (crossed : Nat) : Bool :=
  match t.head with
  | none => false
  | some a => decide (1 + a.bytes.length ≤ crossed)

/-- The request that the MOSI bytes make: at most a header and the largest payload are kept (R190, log 24). -/
def takeRequest (mosi : List Byte) : RawRequest :=
  { bytes := mosi.take (4 + Config.maxPayload), overlong := decide (4 + Config.maxPayload < mosi.length) }

/-- The transaction is a poll: no whole byte, or a type field of 0 (R187). -/
def isPoll : List Byte → Bool
  | [] => true
  | b :: _ => b == 0

/-- CHIP_SELECT_RISE (R186, R187): a completely clocked-out head answer that is still queued is removed, and the MOSI bytes are a
poll, a discarded request, or a request taken, which finds its slot free (State.promisedSlots). -/
def execChipSelectRise (mosi : List Byte) (crossed : Nat) (s : State) : Result :=
  .next (
    match s.link.transaction with
    | none => s
    | some t =>
      let outbound := if t.headLive && t.clockedOut crossed then s.link.outbound.tail else s.link.outbound
      let takes := crossed != 0 && !isPoll mosi && !t.full
      let inbound := if takes then s.link.inbound ++ [takeRequest mosi] else s.link.inbound
      { s with link := { s.link with transaction := none, outbound := outbound, inbound := inbound } })

/-- The answer to a request that fails framing, if it does (R190, R191, R201). -/
def framingAnswer (raw : RawRequest) : Option Answer :=
  match frameCheck raw with
  | .ok _ _ _ => none
  | .badLength ty tag => some { type := ty, tag := tag, payload := refuse .eLen }
  | .badType tag => some { type := 0x80, tag := tag, payload := refuse .eType }

/-- FRAMING_REFUSAL (R190): a taken request that fails framing is answered E_LEN or E_TYPE and reaches no owner. While an older request
waits or the outbound queue is full, it waits in its turn (R189). -/
def execFramingRefusal (raw : RawRequest) (s : State) : Result :=
  .next (
    match framingAnswer raw with
    | none => s
    | some a => if s.running then (if s.canServe then s.postAnswer a else s.stall raw) else s)

/-! ## Event flag requests and XIDENT (R194 to R197) -/

/-- EREAD's fields: flags, enables and each lane's last cue tag (R194). -/
def eventFields (s : State) : List Byte :=
  put72 s.flagWord ++ put72 s.link.enables ++ (s.lanes.toList.map (fun l => optField 1 put8 l.lastTag)).flatten

/-- EREAD (R194). -/
def execEread (tag : Byte) (s : State) : Result :=
  .next (s.serve (.eread tag) (fun s => (s, accept (eventFields s))))

/-- A set of flags names a position that holds none (R195, R196). -/
def namesNoFlag (w : FlagWord) : Bool := (w &&& ~~~ flagPositions) != 0

/-- ECLEAR's work (R195). -/
def clearOwner (mask : FlagWord) (s : State) : State × List Byte :=
  if namesNoFlag mask then (s, refuse .eRange)
  else ((s.clearFlags mask), accept (put72 (s.clearFlags mask).flagWord))

/-- ECLEAR (R195). -/
def execEclear (tag : Byte) (mask : FlagWord) (s : State) : Result :=
  .next (s.serve (.eclear tag mask) (clearOwner mask))

/-- EMASK's work (R196). -/
def maskOwner (enables : FlagWord) (s : State) : State × List Byte :=
  if namesNoFlag enables then (s, refuse .eRange)
  else ({ s with link := { s.link with enables := enables } }, accept (put72 enables ++ put72 s.flagWord))

/-- EMASK (R196). -/
def execEmask (tag : Byte) (enables : FlagWord) (s : State) : Result :=
  .next (s.serve (.emask tag enables) (maskOwner enables))

/-- XIDENT's fields (R197, field table). -/
def identFields : List Byte :=
  put16 Config.partCode ++ put8 Config.revision ++ nat16 256 ++ nat16 Config.pageWords ++ nat8 6 ++ nat8 Config.framePool
    ++ nat8 4 ++ nat8 6 ++ nat8 Config.inboundSlots ++ nat8 Config.outboundAnswers ++ nat16 Config.maxPayload

/-- XIDENT (R197). -/
def execXident (tag : Byte) (s : State) : Result :=
  .next (s.serve (.xident tag) (fun s => (s, accept identFields)))

end Sys2Proof.Machine
end

