-- ==== Sys2Proof/Machine/Streams.lean ====
section
/-! DEFINITION. Streams, bindings and timed switches, admission of frames, and epoch purges (R62 to R81): LBIND, LFRAME. -/

namespace Sys2Proof.Machine

/-! ## Targets and late points outside a boundary (R75, R109) -/

/-- The first block boundary that is yet to be taken: the present tick's while it is due, else the next one (R75, R78; log 11). -/
def State.nextBoundary (s : State) : Time :=
  if s.boundaryDue then boundaryTime (blockIndex s.count) else boundaryTime (blockIndex s.count + 1)

/-- House time at the emission of the block of a boundary, SPA's DAC latency added (R109); undefined while UNLOCKED. -/
def State.emissionHouse? (s : State) (b : Time) : Option Time :=
  s.tracker.house? (addTicks b ((Config.emissionTicks + s.ports.spa.latency : Nat) : Int))

/-- A lane's target content time from the house time of the emission (R109). -/
def LaneConfig.target (c : LaneConfig) (house : Time) : Time := addTicks house (-c.roomOffset)

/-- A lane's late point, given the target of the next block (R75). A PLAYING or HELD lane without a cursor has the target of the next block
for late point: R75 says so where a purge released the cursor's frame, and where step 1 of R65 did it is the model's choice (log 30). So is
that target for a BRIDGING lane whose aim frame a purge released with no frame left (log 36). -/
def Lane.latePoint (l : Lane) (target : Time) : Time :=
  match l.state with
  | .playing => l.cursorContent.getD target
  | .held => l.cursorContent.getD target
  | .bridging =>
    match l.aim, l.queue with
    | .time t, _ => t
    | _, f :: _ => f.time
    | _, [] => target
  | .off => target
  | .stopped => target
  | .armed => target
  | .starved => target
  | .stopping => target
  | .drained => target
  | .running => target

/-- A lane's late point between boundaries; undefined while UNLOCKED (R75). -/
def State.latePoint? (s : State) (l : Lane) : Option Time :=
  (s.emissionHouse? s.nextBoundary).map (fun h => l.latePoint (l.config.target h))

/-! ## Switches (R65, R66) -/

/-- The commit of a pending switch (R66): the pending stream becomes current, and QUEUED frames of the old one are released. -/
def Lane.commit (l : Lane) : Lane :=
  match l.switch with
  | none => l
  | some sw =>
    { l.releaseWhere (fun f => f.status == .queued && some f.stream == l.current) with
      current := some sw.stream
      switch := none }

/-- A pending switch is due at a content time (R66). -/
def Lane.switchDue (l : Lane) (content : Option Time) : Bool :=
  match l.switch, content with
  | some sw, some p => notEarlier p sw.time
  | _, _ => false

/-- A stream is current or pending on a lane (R62). -/
def Lane.bound (l : Lane) (st : StreamId) : Bool :=
  l.current == some st || (match l.switch with
    | none => false
    | some sw => sw.stream == st)

/-- A stream is current or pending on a lane other than `i` (R63). -/
def State.boundElsewhere (s : State) (i : LaneId) (st : StreamId) : Bool :=
  LaneId.list.any (fun j => j != i && (s.lanes.get j).bound st)

/-- An LBIND without a switch time (R64); `named` is the carried stream or none. -/
def Lane.bindNow (l : Lane) (named : Option StreamId) : Lane :=
  let l1 := match l.switch with
    | none => l
    | some sw => { l.releaseWhere (fun f => f.stream == sw.stream && named != some sw.stream) with switch := none }
  let l2 := l1.releaseWhere (fun f => some f.stream == l.current && named != l.current)
  { l2 with current := named }

/-- Steps 1 and 2 of an LBIND with a switch time (R65). Where step 1 releases the frame that is PLAYING, R71 leaves the lane's state to
R65, which states none: the state stays and the lane has no cursor, so that its next boundary finds it as after a purge (log 30). -/
def Lane.setSwitch (l : Lane) (sw : Switch) : Lane :=
  let l1 := match l.switch with
    | none => l
    | some old =>
      if old.stream = sw.stream then l.releaseWhere (fun f => f.stream == old.stream && earlier f.time sw.time)
      else l.releaseWhere (fun f => f.stream == old.stream)
  { l1 with switch := some sw }

/-- Steps 3 and 4 of an LBIND with a switch time (R65). -/
def Lane.settleSwitch (l : Lane) (latePoint : Option Time) (sw : Switch) : Lane :=
  if l.switchDue latePoint then l.commit
  else l.releaseWhere (fun f => f.status == .queued && some f.stream == l.current && notEarlier f.time sw.time)

/-- The binding fields of an answer: current stream, pending stream and T (R107). -/
def Lane.bindingFields (l : Lane) : List Byte :=
  optField 2 put16 l.current ++ optField 2 put16 (l.switch.map Switch.stream)
    ++ put48 ((l.switch.map Switch.time).getD 0)

/-- LBIND's fields (R63). -/
def bindFields (i : LaneId) (l : Lane) : List Byte :=
  nat8 i.num ++ l.bindingFields ++ nat8 l.held ++ nat32 l.buffered

/-- LBIND's work (R63 to R65). -/
def bindOwner (r : LbindReq) (s : State) : State × List Byte :=
  match readLane r.lane, readOpt r.streamP r.stream, readOpt r.timeP r.time with
  | some i, some stream, some time =>
    let l := s.lanes.get i
    if stream.isNone && time.isSome then (s, refuse .eRange)
    else if !l.isPlay then (s, refuse .eState)
    else if (match stream with
        | none => false
        | some st => s.boundElsewhere i st || (time.isSome && l.current == some st)) then (s, refuse .eBound)
    else
      match stream, time with
      | some st, some t =>
        let sw : Switch := { stream := st, time := t }
        let l1 := l.setSwitch sw
        let l2 := (l1.settleSwitch (s.latePoint? l1) sw).watermark l.buffered
        (s.setLane i l2, accept (bindFields i l2))
      | _, _ =>
        if l.state = .stopped ∨ l.state = .drained then
          let l2 := (l.bindNow stream).watermark l.buffered
          (s.setLane i l2, accept (bindFields i l2))
        else (s, refuse .eState)
  | _, _, _ => (s, refuse .eRange)

/-- LBIND (R63). -/
def execLbind (tag : Byte) (r : LbindReq) (s : State) : Result := .next (s.serve (.lbind tag r) (bindOwner r))

/-! ## Admission (R73 to R77) -/

/-- The payload length an LFRAME's fields imply: none for a width that is neither 16 nor 24 (R73, log 14). -/
def frameImplied (r : LframeReq) : Option Nat :=
  (readWidth r.width).map (fun w =>
    r.samples.toNat * r.channels.toNat * (match w with
      | .w16 => 2
      | .w24 => 3))

/-- Check 1 of R73 fails. -/
def frameBadLength (r : LframeReq) : Bool :=
  match frameImplied r with
  | none => false
  | some n => r.payload.length != n

/-- Check 2 of R73 fails. -/
def frameBadRange (r : LframeReq) : Bool :=
  r.samples == 0 || decide (1024 < r.samples.toNat) || (r.channels != 1 && r.channels != 2) || (readWidth r.width).isNone
    || (r.marks &&& 0xFC) != 0 || (readOpt r.tagP r.cueTag).isNone

/-- The lane a stream is routed to (R62, R73 check 3). -/
def State.laneOfStream (s : State) (st : StreamId) : Option LaneId :=
  LaneId.list.find? (fun i => (s.lanes.get i).isPlay && (s.lanes.get i).bound st)

/-- The switch window (R74). -/
def Lane.inWindow (l : Lane) (st : StreamId) (pts : Time) : Bool :=
  match l.switch with
  | none => l.current == some st
  | some sw =>
    if sw.stream = st then notEarlier pts sw.time
    else l.current == some st && earlier pts sw.time

/-- 16-bit samples, each multiplied by 256 (R77). -/
def expand16 : List Byte → List Int
  | a :: b :: rest => (a ++ b).toInt * 256 :: expand16 rest
  | _ => []

/-- 24-bit samples, stored as they are (R77). -/
def expand24 : List Byte → List Int
  | a :: b :: c :: rest => (a ++ (b ++ c)).toInt :: expand24 rest
  | _ => []

/-- The samples of a frame's payload (R77). -/
def frameSamples (r : LframeReq) : List Int :=
  match readWidth r.width with
  | some .w16 => expand16 r.payload
  | some .w24 => expand24 r.payload
  | none => []

/-- Write samples into a lane's region from a ring offset on, wrapping at the region's end (R53, R55). -/
def writeSamples (c : LaneConfig) : Nat → List Int → Memory → Memory
  | _, [], m => m
  | offset, x :: rest, m => writeSamples c (offset + 1) rest (m.write (c.wordAt offset) (sampleWord x))

/-- The words the frame needs. -/
def frameWords (r : LframeReq) : Nat := r.samples.toNat * r.channels.toNat

/-- The frame's end time (R68). -/
def frameEndTime (r : LframeReq) : Time := addTicks r.pts (sampleSpan r.samples.toNat)

/-- A record of the lane's queue forbids a pts: one with an equal pts, or a PLAYING one than whose the pts is earlier (R73 check 10). -/
def FrameRecord.forbids (pts : Time) (f : FrameRecord) : Bool :=
  f.time == pts || (f.status == .playing && earlier pts f.time)

/-- Checks 5 to 12 of R73, in order: the first that fails. -/
def State.admission (s : State) (l : Lane) (r : LframeReq) : Option ResultCode :=
  if !l.inWindow r.stream r.pts then some .eSwitch
  else if r.epoch ≠ s.tracker.epoch ∧ some r.epoch ≠ s.tracker.candidate then some .eEpoch
  else if (match s.latePoint? l with
      | none => false
      | some p => !later (frameEndTime r) p) then some .eLate
  else if (match s.tracker.house? s.count with
      | none => false
      | some h => decide ((l.config.leadLimit : Int) < sdiff r.pts h)) then some .eEarly
  else if l.queue.any (fun f => f.stream == r.stream && f.seq == r.seq) then some .eDup
  else if l.queue.any (FrameRecord.forbids r.pts) then some .eOrder
  else if l.config.quota ≤ l.queue.length then some .eQuota
  else if l.free < frameWords r then some .eRoom
  else none

/-- The record of an admitted frame, its words at a ring offset (R76). -/
def frameRecord (r : LframeReq) (offset : Nat) : FrameRecord :=
  { status := .queued, stream := r.stream, seq := r.seq, epoch := r.epoch, pts := some r.pts, samples := r.samples.toNat,
    channels := r.channels.toNat, offset := offset, disc := r.marks.getLsbD 0, endMark := r.marks.getLsbD 1,
    tag := (readOpt r.tagP r.cueTag).getD none }

/-- The lane after an admission (R76): allocation, record, insertion, watermark check. -/
def Lane.takeFrame (l : Lane) (r : LframeReq) : Lane :=
  let l1 := l.allocate (frameWords r)
  { l1 with queue := insertByTime (frameRecord r l.writeOffset) l1.queue }.watermark l.buffered

/-- The lane that admission works on: a pending switch that is due is committed before check 5, and its change of the buffered
count checked at once (R66, R73). -/
def State.commitForFrame (s : State) (l : Lane) : Lane :=
  if l.switchDue (s.latePoint? l) then l.commit.watermark l.buffered else l

/-- LFRAME's fields (R76). -/
def frameFields (i : LaneId) (l : Lane) : List Byte := nat8 i.num ++ nat8 l.held ++ nat32 l.buffered

/-- LFRAME's work (R73 to R77). -/
def frameOwner (r : LframeReq) (s : State) : State × List Byte :=
  if frameBadLength r then (s, refuse .eLen)
  else if frameBadRange r then (s, refuse .eRange)
  else
    match s.laneOfStream r.stream with
    | none => (s, refuse .eNolane)
    | some i =>
      if r.channels.toNat ≠ (s.lanes.get i).config.channels then (s, refuse .eRange)
      else
        let l := s.commitForFrame (s.lanes.get i)
        match s.admission l r with
        | some code => (s.setLane i l, refuse code)
        | none =>
          let l1 := l.takeFrame r
          ({ s.setLane i l1 with store := writeSamples l.config l.writeOffset (frameSamples r) s.store },
            accept (frameFields i l1))

/-- LFRAME (R73). -/
def execLframe (tag : Byte) (r : LframeReq) (s : State) : Result := .next (s.serve (.lframe tag r) (frameOwner r))

/-! ## Epoch purges (R79, R80) -/

/-- A frame is outside the tracker's epochs. -/
def FrameRecord.outside (epoch : Byte) (candidate : Option Byte) (f : FrameRecord) : Bool :=
  f.epoch != epoch && some f.epoch != candidate

/-- The purge of one lane (R79). What the purge makes of a lane's state is taken by its next boundary (R80, R90 to R94; log 6). -/
def Lane.purge (epoch : Byte) (candidate : Option Byte) (l : Lane) : Lane :=
  if l.config.direction = .play then
    let n := (l.queue.filter (FrameRecord.outside epoch candidate)).length
    let l1 := l.releaseWhere (FrameRecord.outside epoch candidate)
    { l1 with counters := { l1.counters with purges := satAdd l1.counters.purges n } }.watermark l.buffered
  else l

/-- The purge the tracker asks for after a change of epoch or candidate (R27, R79). -/
def State.purge (s : State) : State :=
  { s with lanes := s.lanes.mapId (fun _ l => l.purge s.tracker.epoch s.tracker.candidate) }

end Sys2Proof.Machine
end

