-- ==== Sys2Proof/Machine/Lanes.lean ====
section
/-! DEFINITION. Lane configuration, enabling and disabling (R45 to R52), starting and halting lanes of both directions (R85, R86,
R157, R158), and the lane report (R107, R167): LCFG, LGO, LHALT, LSTAT. -/

namespace Sys2Proof.Machine

/-! ## LCFG (R47 to R52) -/

/-- The carried configuration, with the codes of check 1 read; none where one is unknown (R47). -/
def carriedConfig (r : LcfgReq) : Option (Bool × LaneConfig) :=
  match readBool r.enable, readDirection r.direction, readPolicy r.policy with
  | some en, some dir, some pol =>
    if (r.channels == 1 || r.channels == 2) && decide (1 ≤ r.quota.toNat) && decide (r.quota.toNat ≤ 128)
        && decide (r.firstPage.toNat ≤ r.lastPage.toNat) then
      some (en,
        { direction := dir, firstPage := r.firstPage, lastPage := r.lastPage, quota := r.quota.toNat,
          channels := r.channels.toNat, policy := pol, leadLimit := r.leadLimit.toNat, low := r.low.toNat,
          high := r.high.toNat, roomOffset := r.roomOffset.toInt, gs := r.gs.toNat, trimMax := r.trimMax.toNat,
          slipLimit := r.slipLimit.toNat, frameSize := r.frameSize.toNat, dataMark := r.dataMark.toNat,
          inputLatency := r.inputLatency.toNat })
    else none
  | _, _, _ => none

/-- The clamps (R49). -/
def LaneConfig.clamp (c : LaneConfig) : LaneConfig :=
  let low := min c.low c.capacity
  { c with
    roomOffset := clampInt (-1048576) 1048575 c.roomOffset
    gs := clampNat 6 14 c.gs
    trimMax := min c.trimMax 13421
    slipLimit := clampNat 512 1048575 c.slipLimit
    leadLimit := clampNat 24576 1474560000 c.leadLimit
    low := low
    high := max low (min c.high c.capacity)
    frameSize := clampNat 64 1024 (c.frameSize / 64 * 64)
    dataMark := clampNat 1 c.quota c.dataMark
    inputLatency := min c.inputLatency 65535 }

/-- What an active lane may change is taken from `from_`, everything else stays (R48). -/
def LaneConfig.withChangeable (c from_ : LaneConfig) : LaneConfig :=
  { c with
    roomOffset := from_.roomOffset
    gs := from_.gs
    trimMax := from_.trimMax
    slipLimit := from_.slipLimit
    low := from_.low
    high := from_.high
    leadLimit := from_.leadLimit
    inputLatency := from_.inputLatency }

/-- The change is permitted in the lane's state (R48); `c` is the clamped configuration. -/
def Lane.mayConfigure (l : Lane) (en : Bool) (c : LaneConfig) : Bool :=
  if l.state = .off then true
  else if l.state = .stopped then
    c.direction == l.config.direction && c.firstPage == l.config.firstPage && c.lastPage == l.config.lastPage
      && (c.channels == l.config.channels || l.held == 0)
  else en && c == l.config.withChangeable c

/-- Two regions share a page. -/
def LaneConfig.overlaps (c d : LaneConfig) : Bool :=
  decide (c.firstPage.toNat ≤ d.lastPage.toNat) && decide (d.firstPage.toNat ≤ c.lastPage.toNat)

/-- The enabled lanes other than `i`. -/
def State.otherEnabled (s : State) (i : LaneId) : List Lane :=
  (LaneId.list.filter (fun j => j != i && (s.lanes.get j).enabled)).map s.lanes.get

/-- Checks 2 to 6 of R47, in order: the first that fails. -/
def State.configRefusal (s : State) (i : LaneId) (en : Bool) (c : LaneConfig) : Option ResultCode :=
  let l := s.lanes.get i
  let others := s.otherEnabled i
  let enabling := en && l.state == .off
  if !l.mayConfigure en c then some .eState
  else if enabling && others.any (fun o => c.overlaps o.config) then some .eOverlap
  else if enabling && c.direction == .capture && others.any (fun o => o.config.direction == .capture) then some .eBound
  else if (enabling || l.enabled) && decide (128 < c.quota + (others.map (fun o => o.config.quota)).sum) then some .eQuota
  else if l.enabled && decide (c.quota < l.held) then some .eQuota
  else none

/-- A lane enabled with a configuration (R51, R82, R108, R156): empty, STOPPED; its pending cue actions and event flags stay. -/
def Lane.enable (l : Lane) (c : LaneConfig) : Lane :=
  { Lane.reset with config := c, state := .stopped, actions := l.actions, flags := l.flags }

/-- A lane disabled, and the carried configuration stored (R52, R82). -/
def Lane.disable (l : Lane) (c : LaneConfig) : Lane :=
  { l with
    config := c
    state := .off
    writeOffset := 0
    reclaimOffset := 0
    allocs := []
    queue := []
    filling := none
    current := none
    switch := none
    cursor := none
    aim := .absent
    halt := none }

/-- The lane after an LCFG that is taken (R47, R51, R52). -/
def Lane.configure (l : Lane) (en : Bool) (c : LaneConfig) : Lane :=
  if en && l.state == .off then l.enable c
  else if !en && l.state == .stopped then l.disable c
  else { l with config := c }

/-- The 36 bytes of a lane's configuration, as stored (R107; log 15). -/
def configFields (i : LaneId) (l : Lane) : List Byte :=
  nat8 i.num ++ bool8 l.enabled ++ put8 l.config.direction.code ++ put8 l.config.firstPage ++ put8 l.config.lastPage
    ++ nat8 l.config.quota ++ nat8 l.config.channels ++ put8 l.config.policy.code ++ nat32 l.config.leadLimit
    ++ nat32 l.config.low ++ nat32 l.config.high ++ int32 l.config.roomOffset ++ nat8 l.config.gs ++ nat16 l.config.trimMax
    ++ nat32 l.config.slipLimit ++ nat16 l.config.frameSize ++ nat8 l.config.dataMark ++ nat16 l.config.inputLatency

/-- LCFG's work (R47). -/
def configOwner (r : LcfgReq) (s : State) : State × List Byte :=
  match readLane r.lane, carriedConfig r with
  | some i, some (en, raw) =>
    let c := raw.clamp
    match s.configRefusal i en c with
    | some code => (s, refuse code)
    | none =>
      let l := (s.lanes.get i).configure en c
      (s.setLane i l, acceptOr (c != raw) (configFields i l ++ put8 l.state.code))
  | _, _ => (s, refuse .eRange)

/-- LCFG (R47). -/
def execLcfg (tag : Byte) (r : LcfgReq) (s : State) : Result := .next (s.serve (.lcfg tag r) (configOwner r))

/-! ## Starting and halting (R85, R86, R157, R158) -/

/-- LGO at a lane, or its refusal (R85, R157). -/
def Lane.go (l : Lane) (now : Time) : Except ResultCode Lane :=
  if l.state = .off then .error .eState
  else
    match l.config.direction with
    | .play =>
      if l.state = .stopped ∨ l.state = .drained then .ok { l with state := .armed, aim := .frame } else .error .eState
    | .capture =>
      if l.state = .stopped then
        if l.config.regionSize < l.config.frameSize * l.config.channels then .error .eRange
        else .ok { l with state := .running, runNumber := l.runNumber + 1, entryTime := some now, discPending := true }
      else .error .eState

/-- Give up the frame being filled (R158, R164): the discards counter rises, though R71's table gives this release no counter (log 31). -/
def Lane.discardFilling (l : Lane) : Lane :=
  match l.filling with
  | none => l
  | some f =>
    { l.releaseAlloc f.record.offset with
      filling := none
      captureCounters := { l.captureCounters with discards := satInc l.captureCounters.discards } }

/-- Release every record of the queue (R86, R94, R158). -/
def Lane.flushQueue (l : Lane) : Lane := l.releaseWhere (fun _ => true)

/-- LHALT at a PLAY lane that is enabled (R86). -/
def Lane.haltPlay (l : Lane) (flush : Bool) : Lane :=
  if l.state = .stopped then (if flush then l.flushQueue else l)
  else if l.state = .stopping then
    let h := l.halt.getD { fromCursor := false, flush := false }
    { l with halt := some { h with flush := h.flush || flush } }
  else { l with state := .stopping, halt := some { fromCursor := l.state == .playing, flush := flush } }

/-- LHALT at a CAPTURE lane that is enabled (R158). -/
def Lane.haltCapture (l : Lane) (flush : Bool) : Lane :=
  let l1 := if l.state = .running then { l.discardFilling with state := .stopped, entryTime := none } else l
  if flush then l1.flushQueue else l1

/-- LHALT at a lane, or its refusal (R86, R158). -/
def Lane.halting (l : Lane) (flush : Bool) : Except ResultCode Lane :=
  if l.state = .off then .error .eState
  else
    match l.config.direction with
    | .play => .ok (l.haltPlay flush)
    | .capture => .ok (l.haltCapture flush)

/-- The condition under which SPC watches its word select (R153): enabled in SLAVE mode, with a capture lane RUNNING. -/
def State.watchCondition (s : State) : Bool :=
  s.spc.inForce.enable && s.spc.modeInForce == .slave && s.lanes.toList.any Lane.isRunning

/-- The clock watch after an event that may enter or leave its condition (R153): IDLE outside it; WATCHING from the present tick where
the event made a capture lane enter RUNNING (`entered`) or found the watch IDLE; else as it was. -/
def State.refreshWatch (s : State) (entered : Bool) : State :=
  let watch :=
    if s.watchCondition then
      (if entered || s.spc.watch == .idle then .watching s.count else s.spc.watch)
    else .idle
  { s with spc := { s.spc with watch := watch } }

/-- Replace a lane that was started (`entered`) or halted; a CAPTURE lane may thereby enter or leave the clock watch's condition
(R153). -/
def State.setLaneWatched (s : State) (i : LaneId) (l : Lane) (entered : Bool) : State :=
  match l.config.direction with
  | .play => s.setLane i l
  | .capture => (s.setLane i l).refreshWatch entered

/-- LGO's work (R85, R157). -/
def goOwner (n : Byte) (s : State) : State × List Byte :=
  match readLane n with
  | none => (s, refuse .eRange)
  | some i =>
    match (s.lanes.get i).go s.count with
    | .error code => (s, refuse code)
    | .ok l =>
      (s.setLaneWatched i l true,
        accept (nat8 i.num ++ put8 l.state.code
          ++ (match l.config.direction with
            | .play => put16 0
            | .capture => put16 l.runNumber)))

/-- LGO (R85). -/
def execLgo (tag : Byte) (n : Byte) (s : State) : Result := .next (s.serve (.lgo tag n) (goOwner n))

/-- LHALT's work (R86, R158). -/
def haltOwner (r : LhaltReq) (s : State) : State × List Byte :=
  match readLane r.lane, readBool r.flush with
  | some i, some flush =>
    match (s.lanes.get i).halting flush with
    | .error code => (s, refuse code)
    | .ok l =>
      let l1 := l.watermark (s.lanes.get i).buffered
      (s.setLaneWatched i l1 false, accept (nat8 i.num ++ put8 l1.state.code))
  | _, _ => (s, refuse .eRange)

/-- LHALT (R86). -/
def execLhalt (tag : Byte) (r : LhaltReq) (s : State) : Result := .next (s.serve (.lhalt tag r) (haltOwner r))

/-! ## LSTAT (R107, R167) -/

/-- The aim in an answer: its code and its time. -/
def Aim.fields : Aim → List Byte
  | .absent => put8 0 ++ put48 0
  | .frame => put8 1 ++ put48 0
  | .time t => put8 2 ++ put48 t

/-- The cursor in an answer: stream, sequence and index of its frame, or absent (R107). -/
def Lane.cursorFields (l : Lane) : List Byte :=
  match l.cursor, l.queue with
  | some c, f :: _ => put8 1 ++ put16 f.stream ++ put16 f.seq ++ nat16 c.index
  | _, _ => List.replicate 7 0

/-- The nine counters of a PLAY lane (R106). -/
def PlayCounters.fields (c : PlayCounters) : List Byte :=
  nat16 c.starts ++ nat16 c.lateDrops ++ nat16 c.gaps ++ nat16 c.overlaps ++ nat16 c.starvations ++ nat16 c.holds
    ++ nat16 c.slips ++ nat16 c.slipDrops ++ nat16 c.purges

/-- The counters of a CAPTURE lane, and six zero counters (field table). -/
def CaptureCounters.fields (c : CaptureCounters) : List Byte :=
  nat16 c.closed ++ nat16 c.overruns ++ nat16 c.discards ++ List.replicate 12 0

/-- LSTAT's fields on a lane of direction PLAY (R107). -/
def playStatFields (l : Lane) : List Byte :=
  put8 l.state.code ++ l.bindingFields ++ nat8 l.held ++ nat32 l.buffered ++ nat32 l.config.regionSize ++ nat32 l.fill
    ++ l.cursorFields ++ l.aim.fields ++ nat8 l.actions.length ++ optField 1 put8 l.lastTag ++ l.counters.fields
    ++ put16 0 ++ put16 0 ++ put8 0 ++ List.replicate 3 0 ++ optField 6 int48 l.lastError ++ optField 4 nat32 l.lastStep

/-- LSTAT's fields on a lane of direction CAPTURE (R167): the playback fields are absent. -/
def captureStatFields (l : Lane) : List Byte :=
  put8 l.state.code ++ List.replicate 12 0 ++ nat8 l.held ++ nat32 l.buffered ++ nat32 l.config.regionSize ++ nat32 l.fill
    ++ List.replicate 7 0 ++ List.replicate 7 0 ++ nat8 l.actions.length ++ List.replicate 2 0 ++ l.captureCounters.fields
    ++ put16 l.runNumber ++ put16 l.lastSeq ++ nat8 l.queue.length ++ optField 2 nat16 (l.filling.map Filling.written)
    ++ List.replicate 7 0 ++ List.replicate 5 0

/-- LSTAT's work (R107, R167). -/
def statOwner (n : Byte) (s : State) : State × List Byte :=
  match readLane n with
  | none => (s, refuse .eRange)
  | some i =>
    let l := s.lanes.get i
    (s, accept (configFields i l ++ (match l.config.direction with
      | .play => playStatFields l
      | .capture => captureStatFields l)))

/-- LSTAT (R107). -/
def execLstat (tag : Byte) (n : Byte) (s : State) : Result := .next (s.serve (.lstat tag n) (statOwner n))

end Sys2Proof.Machine
end

