-- ==== Sys2Proof/Machine/Playout.lean ====
section
/-! DEFINITION. A playback lane's work at a block boundary: cue actions at lanes, permission, start alignment, trim and slip, the
samples of the block, frame ends, and the lane states (R82 to R127). -/

namespace Sys2Proof.Machine

/-- A lane's block: 64 positions of a left and a right value; a one-channel lane carries its value on both (R84, R129). -/
abbrev Block := List (Int × Int)

/-- A silent block (R84). -/
def silence : Block := List.replicate Config.blockSamples (0, 0)

/-- What every lane's work at one boundary reads (R43, R87): the store, the tracker, the block index, the present tick, and the house
time of the block's emission, undefined while UNLOCKED (R109). -/
structure BoundaryEnv where
  store : Memory
  tracker : Tracker
  block : BlockIndex
  now : Time
  house : Option Time
  deriving DecidableEq, Repr

/-- A lane's target content time at the boundary (R109). -/
def BoundaryEnv.target (env : BoundaryEnv) (l : Lane) : Option Time := env.house.map l.config.target

/-- Permission to emit (R83). -/
def permitted : SyncPolicy → TrackerState → Bool
  | .strict, .locked => true
  | .strict, .holdover => true
  | .strict, .ref => true
  | .strict, .unlocked => false
  | .strict, .acquiring => false
  | .strict, .freerun => false
  | .loose, .unlocked => false
  | .loose, .acquiring => true
  | .loose, .locked => true
  | .loose, .holdover => true
  | .loose, .freerun => true
  | .loose, .ref => true

/-- The target of a lane that has permission; none for a lane that has not (R83, R109). -/
def BoundaryEnv.permittedTarget (env : BoundaryEnv) (l : Lane) : Option Time :=
  if permitted l.config.policy env.tracker.state then env.target l else none

/-! ## Counters -/

/-- One of the nine counters rises (R106). -/
def Lane.countUp (l : Lane) (f : PlayCounters → PlayCounters) : Lane := { l with counters := f l.counters }

/-- The lane enters STARVED (R90, R92, R93, R102): flag, counter, no cursor, no aim, no slip mark. -/
def Lane.starve (l : Lane) : Lane :=
  { (l.raise .starved).countUp (fun c => { c with starvations := satInc c.starvations }) with
    state := .starved
    cursor := none
    aim := .absent
    slipMark := none }

/-! ## Beginning to play (R69, R97, R99) -/

/-- Mark the queue head PLAYING. -/
def Lane.markHeadPlaying (l : Lane) : Lane :=
  match l.queue with
  | [] => l
  | f :: rest => { l with queue := { f with status := .playing } :: rest }

/-- The effects of a frame's beginning to play: its tag is recorded and flagged, and a frame of the pending stream commits the
switch (R69, R66). -/
def Lane.beginEffects (l : Lane) (f : FrameRecord) : Lane :=
  let l1 := match f.tag with
    | none => l
    | some t => { l.raise .tag with lastTag := some t }
  match l1.switch with
  | none => l1
  | some sw => if sw.stream = f.stream then l1.commit else l1

/-- The queue head becomes the cursor's frame at a position; if it was QUEUED this is its beginning to play (R97, R99). -/
def Lane.enterHead (l : Lane) (c : Cursor) : Lane :=
  match l.queue with
  | [] => { l with cursor := none }
  | f :: _ =>
    let l1 := { l.markHeadPlaying with cursor := some c }
    if f.status = .playing then l1 else l1.beginEffects f

/-! ## The phase step (R112 to R114) -/

/-- The rate term of the phase step (R112). -/
def rateTerm (q : Int) : Int := roundDiv q 256

/-- The trim term (R113). -/
def trimTerm (c : LaneConfig) (e : Int) : Int := clampInt (-(c.trimMax : Int)) c.trimMax (e * 2 ^ (15 - c.gs))

/-- The step of a zero error (R114). -/
def plainStep (t : Tracker) : Nat := (Config.unitStep + rateTerm t.q).toNat

/-- The step of a trimming block (R113). -/
def trimmedStep (t : Tracker) (c : LaneConfig) (e : Int) : Nat := (Config.unitStep + rateTerm t.q + trimTerm c e).toNat

/-! ## The samples (R121 to R124) -/

/-- The kinds of block produced from a cursor. -/
inductive BlockKind where
  /-- A trimming block (R113). -/
  | trim
  /-- A start block, faded in (R123). -/
  | start
  /-- A slip block, faded out (R124). -/
  | slip
  /-- The fade-out block of a STOPPING lane (R124). -/
  | stop
  deriving DecidableEq, Repr

/-- The sample of a frame at an index and channel (R53, R121). -/
def frameSample (store : Memory) (c : LaneConfig) (f : FrameRecord) (index channel : Nat) : Int :=
  wordSample (store.read (c.wordAt (f.offset + index * f.channels + channel)))

/-- The signed gap from a frame's end to the next frame's pts (R98). -/
def frameGap (f next : FrameRecord) : Int := sdiff next.time f.endTime

/-- The samples an overlapping frame skips, round(−δ / 512), and 0 for a joined one (R98, R99). -/
def skipOf (gap : Int) : Nat := if gap < -256 then (roundDiv (-gap) 512).toNat else 0

/-- The index by which an advance of the step raises the cursor's (R122). -/
def indexRise (c : Cursor) (step : Nat) : Nat := (c.frac + step) / 2 ^ 24

/-- The frame and index that give x1 at a frame's last sample, where the coming end is joined or overlapped into a frame whose
DISCONTINUITY mark is clear (R99, R121; log 13). -/
def joinSource (f : FrameRecord) (rest : List FrameRecord) (c : Cursor) (step : Nat) : Option (FrameRecord × Nat) :=
  match rest with
  | [] => none
  | next :: _ =>
    let index := (indexRise c step - 1) + skipOf (frameGap f next)
    if f.endMark || decide (256 < frameGap f next) || next.disc || decide (next.samples ≤ index) then none
    else some (next, index)

/-- Linear interpolation between two samples (R121). -/
def interpolate (x0 x1 : Int) (frac : Nat) : Int := x0 + (x1 - x0) * ((frac / 256 : Nat) : Int) / 65536

/-- The sample of one channel at the cursor (R121). -/
def channelSample (store : Memory) (l : Lane) (f : FrameRecord) (rest : List FrameRecord) (c : Cursor) (step channel : Nat) :
    Int :=
  let x0 := frameSample store l.config f c.index channel
  let x1 :=
    if c.index + 1 < f.samples then frameSample store l.config f (c.index + 1) channel
    else match joinSource f rest c step with
      | none => x0
      | some (g, i) => frameSample store l.config g i channel
  interpolate x0 x1 c.frac

/-- The values of a position produced from the cursor (R121); a one-channel lane has its value on both sides. -/
def positionSample (store : Memory) (l : Lane) (f : FrameRecord) (rest : List FrameRecord) (c : Cursor) (step : Nat) :
    Int × Int :=
  let left := channelSample store l f rest c step 0
  if l.config.channels = 1 then (left, left) else (left, channelSample store l f rest c step 1)

/-- The fade of a block position (R123, R124). -/
def fade (k : BlockKind) (j : Nat) (s : Int) : Int :=
  match k with
  | .trim => s
  | .start => s * ((j : Int) + 1) / 64
  | .slip => s * (63 - (j : Int)) / 64
  | .stop => s * (63 - (j : Int)) / 64

/-! ## Frame ends (R98 to R102, R94, R119) -/

/-- A gap at a frame end (R100): the lane bridges toward the next frame. -/
def Lane.enterGap (l : Lane) : Lane :=
  { l.countUp (fun c => { c with gaps := satInc c.gaps }) with state := .bridging, aim := .frame, cursor := none }

/-- An END frame played out (R101). -/
def Lane.drain (l : Lane) : Lane := { l.raise .drained with state := .drained, cursor := none }

/-- What a frame end that stops the lane makes of it; within a STOPPING block only the cursor goes (R94). -/
def Lane.endStops (k : BlockKind) (l : Lane) (stopped : Lane) : Lane :=
  match k with
  | .stop => { l with cursor := none }
  | .trim => stopped
  | .start => stopped
  | .slip => stopped

/-- The end of the cursor's frame, with the cursor's index at or beyond its samples (R98, R99). `fuel` bounds the frames one advance
may pass: the length of the queue. -/
def Lane.frameEnd (k : BlockKind) : Nat → Cursor → Lane → Lane
  | 0, _, l => l
  | fuel + 1, c, l =>
    match l.queue with
    | [] => { l with cursor := none }
    | f :: rest =>
      let l1 := l.releaseHead
      if f.endMark then l1.endStops k l1.drain
      else
        match rest with
        | [] => l1.endStops k l1.starve
        | next :: _ =>
          let gap := frameGap f next
          if 256 < gap then l1.endStops k l1.enterGap
          else
            let l2 := if gap < -256 then l1.countUp (fun n => { n with overlaps := satInc n.overlaps }) else l1
            let c2 : Cursor := { index := (c.index - f.samples) + skipOf gap, frac := c.frac }
            let l3 := l2.enterHead c2
            if next.samples ≤ c2.index then Lane.frameEnd k fuel c2 l3 else l3

/-- The advance after a position (R122). -/
def Lane.advance (k : BlockKind) (step : Nat) (l : Lane) (f : FrameRecord) (c : Cursor) : Lane :=
  let c1 : Cursor := { index := c.index + indexRise c step, frac := (c.frac + step) % 2 ^ 24 }
  if f.samples ≤ c1.index then l.frameEnd k l.queue.length c1 else { l with cursor := some c1 }

/-- Produce `n` positions from block index `j` on (R121 to R125): each from the cursor as it stands, 0 where there is none. -/
def produce (store : Memory) (k : BlockKind) (step : Nat) : Nat → Nat → Lane → Lane × Block
  | 0, _, l => (l, [])
  | n + 1, j, l =>
    match l.cursor, l.queue with
    | some c, f :: rest =>
      let x := positionSample store l f rest c step
      let r := produce store k step n (j + 1) (l.advance k step f c)
      (r.1, (fade k j x.1, fade k j x.2) :: r.2)
    | _, _ =>
      let r := produce store k step n (j + 1) l
      (r.1, (0, 0) :: r.2)

/-- A whole block from the cursor with a step, which becomes the last phase step (R113, R127). -/
def Lane.produceBlock (store : Memory) (k : BlockKind) (step : Nat) (l : Lane) : Lane × Block :=
  produce store k step Config.blockSamples 0 { l with lastStep := some step }

/-! ## Start alignment (R95 to R97, R118) -/

/-- The start position and start content time of an aim against a target; none when the alignment waits (R95). -/
def alignForm (aim target : Time) : Option (Nat × Time) :=
  if later aim target then
    let j0 := ceilDiv (sdiff aim target) 512
    if 64 ≤ j0 then none else some (j0.toNat, addTicks target (j0 * 512))
  else some (0, target)

/-- A late drop, or a slip drop while a slip mark is present (R96, R118). -/
def Lane.dropHead (l : Lane) : Lane :=
  l.releaseHead.countUp (fun c =>
    if l.slipMark.isSome then { c with slipDrops := satInc c.slipDrops } else { c with lateDrops := satInc c.lateDrops })

/-- Release every head frame whose end time is not later than C0 (R96). -/
def Lane.dropLate (c0 : Time) : Nat → Lane → Lane
  | 0, l => l
  | n + 1, l =>
    match l.queue with
    | [] => l
    | f :: _ => if later f.endTime c0 then l else Lane.dropLate c0 n l.dropHead

/-- The cursor position in a frame at a content time not before its pts (R96). -/
def cursorAt (f : FrameRecord) (c0 : Time) : Cursor :=
  let d := (sdiff c0 f.time).toNat
  { index := d / 512, frac := d % 512 * 2 ^ 15 }

/-- What start alignment comes to. -/
inductive AlignResult where
  /-- It waits. -/
  | waits (l : Lane)
  /-- Its late drops emptied the queue. -/
  | emptied (l : Lane)
  /-- The cursor is placed, and sounds from block position `j0` on. -/
  | placed (l : Lane) (j0 : Nat)
  deriving DecidableEq, Repr

/-- Start alignment to an aim content time (R95, R96). -/
def Lane.align (target aim : Time) (l : Lane) : AlignResult :=
  match alignForm aim target with
  | none => .waits l
  | some (j0, c0) =>
    let l1 := l.dropLate c0 l.queue.length
    match l1.queue with
    | [] => .emptied { l1 with cursor := none }
    | f :: _ =>
      if later f.time c0 then
        match alignForm f.time target with
        | none => .waits { l1 with aim := .frame }
        | some (j1, c1) => .placed (l1.enterHead (cursorAt f c1)) j1
      else .placed (l1.enterHead (cursorAt f c0)) j0

/-- The lane starts (R97): PLAYING, START, and a start block from position `j0` on. -/
def Lane.startBlock (env : BoundaryEnv) (l : Lane) (j0 : Nat) : Lane × Block :=
  let step := plainStep env.tracker
  let l1 := { (l.raise .start).countUp (fun c => { c with starts := satInc c.starts }) with
    state := .playing
    aim := .absent
    slipMark := none
    lastStep := some step }
  let r := produce env.store .start step (Config.blockSamples - j0) j0 l1
  (r.1, List.replicate j0 (0, 0) ++ r.2)

/-! ## The work of each state (R88 to R94) -/

/-- A lane in ARMED (R89). -/
def Lane.workArmed (env : BoundaryEnv) (l : Lane) : Lane × Block :=
  match env.permittedTarget l, l.queue with
  | some t, f :: _ =>
    match l.align t f.time with
    | .waits l1 => (l1, silence)
    | .emptied l1 => (l1, silence)
    | .placed l1 j0 => l1.startBlock env j0
  | _, _ => (l, silence)

/-- The aim content time of a BRIDGING lane; none when the aim is FRAME and the queue is empty (R90). A lane whose aim is TIME takes the
held time whether or not its queue is empty, with a slip mark or without (R90, R118; log 32). -/
def Lane.aimTime (l : Lane) : Option Time :=
  match l.aim, l.queue with
  | .time t, _ => some t
  | _, f :: _ => some f.time
  | _, [] => none

/-- A BEHIND lane's held time is replaced by the target of the boundary at which it realigns (R117). -/
def Lane.refreshAim (l : Lane) (target : Time) : Lane :=
  match l.aim with
  | .time _ => if l.slipMark = some .behind then { l with aim := .time target } else l
  | .frame => l
  | .absent => l

/-- A lane in BRIDGING (R90, R117). Permission is tested first, so a lane without it that a purge left with no frame to aim at becomes
STARVED only when permission returns (R80; log 36). -/
def Lane.workBridging (env : BoundaryEnv) (l : Lane) : Lane × Block :=
  match env.permittedTarget l with
  | none => (l, silence)
  | some t =>
    let l1 := l.refreshAim t
    match l1.aimTime with
    | none => (l1.starve, silence)
    | some a =>
      match l1.align t a with
      | .waits l2 => (l2, silence)
      | .emptied l2 => (l2.starve, silence)
      | .placed l2 j0 => l2.startBlock env j0

/-- A lane becomes BRIDGING with aim FRAME at this boundary and does that state's work (R91, R92, R93). -/
def Lane.bridgeToHead (env : BoundaryEnv) (l : Lane) : Lane × Block :=
  { l with state := .bridging, aim := .frame }.workBridging env

/-- A PLAYING or HELD lane whose cursor frame a purge released (R92, R93). -/
def Lane.workPurged (env : BoundaryEnv) (l : Lane) : Lane × Block :=
  if l.queue.isEmpty then (l.starve, silence) else l.bridgeToHead env

/-- A lane in STARVED (R91). -/
def Lane.workStarved (env : BoundaryEnv) (l : Lane) : Lane × Block :=
  if l.queue.isEmpty then (l, silence) else l.bridgeToHead env

/-- A lane in HELD (R92). -/
def Lane.workHeld (env : BoundaryEnv) (l : Lane) : Lane × Block :=
  match l.cursorContent with
  | none => l.workPurged env
  | some t =>
    match env.permittedTarget l with
    | none => (l, silence)
    | some _ => { l with state := .bridging, aim := .time t }.workBridging env

/-- After a slip block whose cursor is still present: BRIDGING, with the aim and mark of the error's sign (R116). -/
def Lane.afterSlip (l : Lane) (target : Time) (e : Int) : Lane :=
  match l.cursorContent with
  | none => l
  | some content =>
    if 0 < e then { l with state := .bridging, slipMark := some .behind, aim := .time (addTicks target 32768) }
    else { l with state := .bridging, slipMark := some .ahead, aim := .time content }

/-- A slip (R115, R116). -/
def Lane.slip (env : BoundaryEnv) (l : Lane) (target : Time) (e : Int) : Lane × Block :=
  let l1 := (l.raise .slip).countUp (fun c => { c with slips := satInc c.slips })
  let r := l1.produceBlock env.store .slip (plainStep env.tracker)
  (r.1.afterSlip target e, r.2)

/-- A lane in PLAYING (R93, R110, R111, R113). -/
def Lane.workPlaying (env : BoundaryEnv) (l : Lane) : Lane × Block :=
  match l.cursorContent with
  | none => l.workPurged env
  | some actual =>
    match env.permittedTarget l with
    | none => ({ (l.raise .held).countUp (fun c => { c with holds := satInc c.holds }) with state := .held }, silence)
    | some t =>
      let e := sdiff t actual
      let l1 := { l with lastError := some e }
      if e.natAbs ≤ l.config.slipLimit then l1.produceBlock env.store .trim (trimmedStep env.tracker l.config e)
      else l1.slip env t e

/-- The block of a lane in STOPPING (R94, R114). -/
def Lane.stoppingBlock (env : BoundaryEnv) (l : Lane) : Lane × Block :=
  match l.halt, l.cursorContent, env.permittedTarget l with
  | some h, some actual, some t =>
    if h.fromCursor then
      let e := sdiff t actual
      { l with lastError := some e }.produceBlock env.store .stop (trimmedStep env.tracker l.config e)
    else (l, silence)
  | _, _, _ => (l, silence)

/-- Return the cursor's frame to QUEUED and discard the cursor (R94). -/
def Lane.discardCursor (l : Lane) : Lane :=
  { l with
    cursor := none
    queue := l.queue.map (fun f => if f.status = .playing then { f with status := .queued } else f) }

/-- The stop is completed (R94, R118). -/
def Lane.completeStop (l : Lane) : Lane :=
  let l1 := l.discardCursor
  let l2 := if (l.halt.map Halt.flush).getD false then l1.flushQueue else l1
  { l2 with aim := .absent, halt := none, slipMark := none, state := .stopped }

/-- A lane in STOPPING (R94). -/
def Lane.workStopping (env : BoundaryEnv) (l : Lane) : Lane × Block :=
  let r := l.stoppingBlock env
  (r.1.completeStop, r.2)

/-- Step 3 of a lane's work: the work of the state it holds (R87). -/
def Lane.workState (env : BoundaryEnv) (l : Lane) : Lane × Block :=
  match l.state with
  | .off => (l, silence)
  | .stopped => (l, silence)
  | .drained => (l, silence)
  | .running => (l, silence)
  | .armed => l.workArmed env
  | .playing => l.workPlaying env
  | .bridging => l.workBridging env
  | .starved => l.workStarved env
  | .held => l.workHeld env
  | .stopping => l.workStopping env

/-! ## Cue actions at lanes (R103, R104) -/

/-- Apply one action record as the request it names (R104); whether it succeeded. -/
def LaneAction.apply (a : LaneAction) (now : Time) (l : Lane) : Lane × Bool :=
  let r := match a.action with
    | .go => l.go now
    | .halt flush => l.halting flush
  match r with
  | .ok l1 => (l1, true)
  | .error _ => (l, false)

/-- Apply records in order, with the outcomes for their cues (R104). -/
def applyActions (now : Time) : List LaneAction → Lane → Lane × List (CueId × Bool)
  | [], l => (l, [])
  | a :: rest, l =>
    let r := a.apply now l
    let r2 := applyActions now rest r.1
    (r2.1, (a.cue, r.2) :: r2.2)

/-- Insert an action record in cue-number order (R103). -/
def insertAction (a : LaneAction) : List LaneAction → List LaneAction
  | [] => [a]
  | b :: rest => if b.cue.num ≤ a.cue.num then b :: insertAction a rest else a :: b :: rest

/-- Step 1 of a lane's work (R104): the records that expired at the boundary before are applied and removed. -/
def Lane.cueStep (env : BoundaryEnv) (l : Lane) : Lane × List (CueId × Bool) :=
  let due := l.actions.filter (fun a => a.expiry + 1 == env.block)
  let left := l.actions.filter (fun a => a.expiry + 1 != env.block)
  applyActions env.now due { l with actions := left }

/-- What a lane's work at a boundary leaves: the lane, its block, and the outcomes of its cue actions. -/
structure LaneWork where
  lane : Lane
  block : Block
  outcomes : List (CueId × Bool)
  deriving DecidableEq, Repr

/-- A lane's work at a boundary (R87, R159): cue actions; for an enabled PLAY lane also the commit test, the work of its state, and
the one watermark check of the boundary. -/
def Lane.boundaryWork (env : BoundaryEnv) (l : Lane) : LaneWork :=
  let r1 := l.cueStep env
  if r1.1.isPlay then
    let l2 := if r1.1.switchDue (env.target r1.1) then r1.1.commit else r1.1
    let r3 := l2.workState env
    { lane := r3.1.watermark l.buffered, block := r3.2, outcomes := r1.2 }
  else { lane := r1.1, block := silence, outcomes := r1.2 }

end Sys2Proof.Machine
end

