-- ==== Sys2Proof/Machine/Mixing.lean ====
section
/-! DEFINITION. The mixer: channel maps, gain ramps, gain actions, ducking, and the sums of the output ports (R128 to R142): MGAIN,
MDUCK, and the mixer's work at a block boundary. -/

namespace Sys2Proof.Machine

/-! ## Channel maps and ramps (R129 to R131) -/

/-- The left-side and right-side values of a position by a channel map (R129). -/
def ChannelMap.sides (m : ChannelMap) (v : Int × Int) : Int × Int :=
  match m with
  | .stereo => v
  | .swap => (v.2, v.1)
  | .left => (v.1, v.1)
  | .right => (v.2, v.2)
  | .mono => ((v.1 + v.2) / 2, (v.1 + v.2) / 2)

/-- One boundary's step of a gain ramp (R130). -/
def Channel.rampStep (c : Channel) : Channel :=
  if c.b < c.n then
    let b := c.b + 1
    { c with b := b, current := ((c.start : Int) + Int.tdiv (((c.target : Int) - c.start) * b) c.n).toNat }
  else c

/-- Begin a ramp (R131). -/
def Channel.beginRamp (c : Channel) (gain n : Nat) : Channel :=
  { c with start := c.current, target := gain, n := n, b := 0 }

/-- Replace a lane's channel on a port. -/
def Mixer.setChannel (m : Mixer) (i : LaneId) (p : OutPort) (c : Channel) : Mixer :=
  { m with channels := m.channels.set i ((m.channels.get i).set p c) }

/-- A lane's channel on a port. -/
def Mixer.channel (m : Mixer) (i : LaneId) (p : OutPort) : Channel := (m.channels.get i).get p

/-- MGAIN's fields (R132). -/
def gainFields (i : LaneId) (p : OutPort) (c : Channel) : List Byte :=
  nat8 i.num ++ put8 (outPortCode p) ++ put8 c.map.code ++ nat16 c.current ++ nat16 c.target ++ nat8 c.n ++ nat8 (c.n - c.b)

/-- MGAIN's work (R132). -/
def gainOwner (r : MgainReq) (s : State) : State × List Byte :=
  match readLane r.lane, readOutPort r.port, readMap r.map with
  | some i, some p, some map =>
    let n := max 1 r.ramp.toNat
    let c := { (s.mixer.channel i p).beginRamp r.gain.toNat n with map := map }
    ({ s with mixer := s.mixer.setChannel i p c }, acceptOr (r.ramp == 0) (gainFields i p c))
  | _, _, _ => (s, refuse .eRange)

/-- MGAIN (R132). -/
def execMgain (tag : Byte) (r : MgainReq) (s : State) : Result := .next (s.serve (.mgain tag r) (gainOwner r))

/-! ## Gain actions (R133, R134) -/

/-- Insert a gain action in cue-number order (R133). -/
def insertGain (a : GainAction) : List GainAction → List GainAction
  | [] => [a]
  | b :: rest => if b.cue.num ≤ a.cue.num then b :: insertGain a rest else a :: b :: rest

/-- A gain action begins its ramp, the channel map unchanged (R134). -/
def Mixer.applyGain (m : Mixer) (a : GainAction) : Mixer :=
  m.setChannel a.lane a.port ((m.channel a.lane a.port).beginRamp a.gain a.ramp)

/-- The gain actions due at a boundary. -/
def Mixer.dueActions (m : Mixer) (k : BlockIndex) : List GainAction := m.actions.filter (fun a => a.expiry + 1 == k)

/-- Step 1 of the mixer's work (R134): the records that expired at the boundary before are applied in order and removed. -/
def Mixer.cueStep (m : Mixer) (k : BlockIndex) : Mixer :=
  (m.dueActions k).foldl Mixer.applyGain { m with actions := m.actions.filter (fun a => a.expiry + 1 != k) }

/-- Step 2 of the mixer's work (R130): every ramp steps. -/
def Mixer.stepRamps (m : Mixer) : Mixer :=
  { m with channels := m.channels.mapId (fun _ c => ⟨c.spa.rampStep, c.spb.rampStep⟩) }

/-! ## Ducking (R135 to R137) -/

/-- The lanes PLAYING, by lane, as their work at the boundary left them (R135). -/
def playingLanes (lanes : LaneMap Lane) : LaneMap Bool := lanes.mapId (fun _ l => l.state == .playing)

/-- Some PLAYING lane has a duck class (R135). -/
def Mixer.classPlaying (m : Mixer) (playing : LaneMap Bool) (c : Nat) : Bool :=
  LaneId.list.any (fun i => playing.get i && m.duckClass.get i == c)

/-- The duck target of a lane of class c: the depth of the highest PLAYING class above it (R135). -/
def Mixer.duckTarget (m : Mixer) (playing : LaneMap Bool) (c : Nat) : Nat :=
  if c < 3 ∧ m.classPlaying playing 3 then m.d3
  else if c < 2 ∧ m.classPlaying playing 2 then m.d2
  else if c < 1 ∧ m.classPlaying playing 1 then m.d1
  else Config.unity

/-- A duck level moved toward its target (R136). -/
def Mixer.slew (m : Mixer) (level target : Nat) : Nat :=
  if target < level then max target (level - (ceilDiv 32768 m.attack).toNat)
  else if level < target then min target (level + (ceilDiv 32768 m.release).toNat)
  else level

/-- Step 3 of the mixer's work (R135, R136). -/
def Mixer.stepDuck (m : Mixer) (playing : LaneMap Bool) : Mixer :=
  { m with duckLevel := m.duckLevel.mapId (fun i v => m.slew v (m.duckTarget playing (m.duckClass.get i))) }

/-- MDUCK's carried classes. -/
def duckClasses (r : MduckReq) : LaneMap Nat :=
  ⟨r.class0.toNat, r.class1.toNat, r.class2.toNat, r.class3.toNat, r.class4.toNat, r.class5.toNat⟩

/-- MDUCK's fields (R137). -/
def duckFields (m : Mixer) : List Byte :=
  nat16 m.d1 ++ nat16 m.d2 ++ nat16 m.d3 ++ nat8 m.attack ++ nat8 m.release ++ (m.duckClass.toList.map nat8).flatten
    ++ (m.duckLevel.toList.map nat16).flatten

/-- MDUCK's work (R137). -/
def duckOwner (r : MduckReq) (s : State) : State × List Byte :=
  if (duckClasses r).toList.any (fun c => decide (3 < c)) then (s, refuse .eRange)
  else
    let m := { s.mixer with
      d1 := min r.d1.toNat Config.unity, d2 := min r.d2.toNat Config.unity, d3 := min r.d3.toNat Config.unity,
      attack := max 1 r.attack.toNat, release := max 1 r.release.toNat, duckClass := duckClasses r }
    let clamped := decide (Config.unity < r.d1.toNat) || decide (Config.unity < r.d2.toNat)
      || decide (Config.unity < r.d3.toNat) || r.attack == 0 || r.release == 0
    ({ s with mixer := m }, acceptOr clamped (duckFields m))

/-- MDUCK (R137). -/
def execMduck (tag : Byte) (r : MduckReq) (s : State) : Result := .next (s.serve (.mduck tag r) (duckOwner r))

/-! ## Summing a port (R138, R139) -/

/-- A lane's effective gain on a port (R138). -/
def Mixer.effectiveGain (m : Mixer) (p : OutPort) (i : LaneId) : Nat :=
  (m.channel i p).current * m.duckLevel.get i / Config.unity

/-- A lane's contribution to both sides of a position (R138). -/
def contribution (map : ChannelMap) (gain : Nat) (v : Int × Int) : Int × Int :=
  let w := map.sides v
  (w.1 * gain / 32768, w.2 * gain / 32768)

/-- The sum of two positions. -/
def addPair (a b : Int × Int) : Int × Int := (a.1 + b.1, a.2 + b.2)

/-- A lane's contributions to a port, position by position (R138). -/
def Mixer.laneContribution (m : Mixer) (p : OutPort) (blocks : LaneMap Block) (i : LaneId) : Block :=
  (blocks.get i).map (contribution (m.channel i p).map (m.effectiveGain p i))

/-- The exact sums of the six lanes (R138). -/
def Mixer.portSums (m : Mixer) (p : OutPort) (blocks : LaneMap Block) : Block :=
  (LaneId.list.map (m.laneContribution p blocks)).foldl (List.zipWith addPair) silence

/-- A sum scaled by a master gain (R138). -/
def scaled (master : Nat) (x : Int) : Int := x * master / 32768

/-- The 24-bit clamp (R138). -/
def clampSample (x : Int) : Int := clampInt (-8388608) 8388607 x

/-- The clips of a position (R139). -/
def clipsAt (v : Int × Int) : Nat :=
  (if clampSample v.1 = v.1 then 0 else 1) + (if clampSample v.2 = v.2 then 0 else 1)

/-- A port's scaled values before the clamp (R138). -/
def Mixer.portScaled (m : Mixer) (p : OutPort) (blocks : LaneMap Block) : Block :=
  (m.portSums p blocks).map (fun v => (scaled (m.master.get p) v.1, scaled (m.master.get p) v.2))

/-- A port's 64 sample pairs (R138). -/
def Mixer.portPairs (m : Mixer) (p : OutPort) (blocks : LaneMap Block) : Block :=
  (m.portScaled p blocks).map (fun v => (clampSample v.1, clampSample v.2))

/-- The clips of a port's block (R139). -/
def Mixer.portClips (m : Mixer) (p : OutPort) (blocks : LaneMap Block) : Nat :=
  ((m.portScaled p blocks).map clipsAt).sum

/-- Count a port's clips while it is enabled (R139). -/
def Mixer.countClips (m : Mixer) (p : OutPort) (enabled : Bool) (blocks : LaneMap Block) : Mixer :=
  if enabled then { m with clips := m.clips.set p (satAdd (m.clips.get p) (m.portClips p blocks)) } else m

/-- Steps 1 to 3 of the mixer's work at a boundary (R141). -/
def Mixer.levels (m : Mixer) (k : BlockIndex) (lanes : LaneMap Lane) : Mixer :=
  ((m.cueStep k).stepRamps).stepDuck (playingLanes lanes)

end Sys2Proof.Machine
end

