-- ==== Sys2Proof/Machine/Ports.lean ====
section
/-! DEFINITION. The serial audio ports: output framing, staging, activity, the input port's assembly and clock watch, PCFG, and
the lines the ports drive (R143 to R155). -/

namespace Sys2Proof.Machine

/-! ## Output ports (R144 to R149) -/

/-- A value reduced to a port's width (R145). -/
def reduceWidth (w : Width) (x : Int) : Int :=
  match w with
  | .w24 => x
  | .w16 => min 32767 ((x + 128) / 256)

/-- A pair reduced to a port's width (R145). -/
def reducePair (w : Width) (v : Int × Int) : Int × Int := (reduceWidth w v.1, reduceWidth w v.2)

/-- The local time at which a block's sample 0 begins (R5). -/
def EmissionBlock.begins (e : EmissionBlock) : Time := addTicks e.base Config.emissionTicks

/-- The position of a block that a sample period beginning at `t` carries, if the block covers it (R5, R146). -/
def EmissionBlock.position? (e : EmissionBlock) (t : Time) : Option Nat :=
  let d := sdiff t e.begins
  if 0 ≤ d ∧ d < 32768 then some (d.toNat / 512) else none

/-- The block's sample 63 has ended by `t` (R146). -/
def EmissionBlock.finished (e : EmissionBlock) (t : Time) : Bool := decide (32768 ≤ sdiff t e.begins)

/-- The pair a list of blocks gives to the period beginning at `t`: (0, 0) where no block covers it (R146). -/
def emissionPair (t : Time) : List EmissionBlock → Int × Int
  | [] => (0, 0)
  | e :: rest =>
    match e.position? t with
    | some j => e.pairs.getD j (0, 0)
    | none => emissionPair t rest

/-- The start of a sample period of an enabled port: finished blocks leave the oldest end, and the staging pair is loaded (R146). -/
def OutPortState.loadPeriod (p : OutPortState) (t : Time) : OutPortState :=
  let kept := p.emission.dropWhile (fun e => e.finished t)
  { p with emission := kept, staging := reducePair p.inForce.width (emissionPair t kept) }

/-- Replace one output port. -/
def State.setPort (s : State) (p : OutPort) (v : OutPortState) : State := { s with ports := s.ports.set p v }

/-- SAMPLE_PERIOD (R146): at a multiple of 512 ticks, for an enabled port. -/
def execSamplePeriod (p : OutPort) (s : State) : Result :=
  .next (
    if s.running && onGrid s.count Config.sampleTicks && (s.ports.get p).inForce.enable then
      s.setPort p ((s.ports.get p).loadPeriod s.count)
    else s)

/-- A port's activity indication (R149). -/
def OutPortState.active (p : OutPortState) : Bool := decide (0 < p.hang) || p.tailEnd.isSome

/-- The hang count and tail end at a boundary (R149); `sounding`: some lane whose gain on this port is nonzero is PLAYING. -/
def OutPortState.hangStep (p : OutPortState) (base : Time) (sounding : Bool) : OutPortState :=
  if sounding then { p with hang := Config.hangBlocks, tailEnd := none }
  else if p.hang = 0 then p
  else if p.hang = 1 then
    { p with hang := 0, tailEnd := if p.latency = 0 then none else some (addTicks base p.latency) }
  else { p with hang := p.hang - 1 }

/-- An output port's work at a boundary (R143, R146, R147, R149): the stored configuration comes into force; an enabled port keeps the
block, a disabled one is emptied. -/
def OutPortState.boundaryWork (p : OutPortState) (base : Time) (pairs : Block) (sounding : Bool) : OutPortState :=
  if p.format.enable then
    let q : OutPortState := { p with inForce := p.format, emission := p.emission ++ [{ base := base, pairs := pairs }] }
    q.hangStep base sounding
  else { p with inForce := p.format, emission := [], staging := (0, 0), hang := 0, tailEnd := none }

/-- Some lane whose current gain on the port is nonzero is PLAYING (R149). -/
def Mixer.sounding (m : Mixer) (p : OutPort) (playing : LaneMap Bool) : Bool :=
  LaneId.list.any (fun i => playing.get i && (m.channel i p).current != 0)

/-- The hang tail end has been reached (R149). -/
def State.tailReached (s : State) (p : OutPort) : Bool :=
  s.running && (match (s.ports.get p).tailEnd with
    | none => false
    | some t => notEarlier s.count t)

/-- HANG_TAIL_END (R149): the port's activity indication becomes false. -/
def execHangTailEnd (p : OutPort) (s : State) : Result :=
  .next (if s.tailReached p then s.setPort p { s.ports.get p with tailEnd := none } else s)

/-! ## The input port (R150 to R153) -/

/-- The sample in assembly was opened at the present tick: a transition has been taken there, and the left slot is open since (R152). -/
def InPortState.openedNow (p : InPortState) : Bool :=
  p.selectTaken && (match p.assembly with
    | none => false
    | some a => a.slot == .left)

/-- SPC's enable and clock mode are the same before and after a boundary (R150). -/
def InPortState.sameDrive (p : InPortState) : Bool := p.format.enable == p.inForce.enable && p.mode == p.modeInForce

/-- The sample in assembly that a boundary leaves on a port that stays enabled: one whose period begins at this very tick is governed by
the configuration that comes into force (R143), but for the polarity by which its opening edge was judged (log 33). -/
def InPortState.keptAssembly (p : InPortState) : Option Assembly :=
  if p.openedNow then p.assembly.map (fun a => { a with format := { p.format with polarity := a.format.polarity } }) else p.assembly

/-- SPC at a boundary (R143, R150): the stored configuration comes into force; a port that is disabled has no sample in assembly. A sample
in assembly on a port that stays enabled stays, whatever becomes of the clock mode, and the next opening edge completes it where its
right slot has opened by then (R152; log 33). The
level of word select is known on, and a transition of this tick counts as the line's one of the tick, only where enable and clock mode
stay; but an opening edge that was seen at this tick already is the one of the period that begins there (log 12, log 22). -/
def InPortState.boundaryWork (p : InPortState) : InPortState :=
  { p with
    inForce := p.format
    modeInForce := p.mode
    assembly := if p.format.enable then p.keptAssembly else none
    selectLevel := if p.sameDrive then p.selectLevel else none
    selectTaken := if p.sameDrive then p.selectTaken else p.format.enable && p.openedNow }

/-- The level of word select through the left slot (R144): low with LEFT-LOW, high with LEFT-HIGH. A transition to it is an opening edge,
so the fall under LEFT-LOW and the rise under LEFT-HIGH (R150). -/
def WsPolarity.leftLevel : WsPolarity → Bool
  | .leftLow => false
  | .leftHigh => true

/-- The polarity by which SPC judges a word-select transition (R143, R150; log 33): the one in force, but in SLAVE mode, within the left
slot of a sample, the one its sample period began under. -/
def InPortState.polarityNow (p : InPortState) : WsPolarity :=
  match p.modeInForce, p.assembly with
  | .slave, some a => if a.slot = .left then a.format.polarity else p.inForce.polarity
  | _, _ => p.inForce.polarity

/-- The level to which an opening edge takes SPC's word select at present (R150). -/
def InPortState.leftLevel (p : InPortState) : Bool := p.polarityNow.leftLevel

/-- A transition of SPC's word select to a level is seen at the present tick: SPC is enabled, and the line has not changed at this tick
before. In SLAVE mode the line must not stand at that level already (R150); in MASTER mode the part itself makes the transition, at a
place of the 512-tick grid (R150). -/
def State.spcEdgeSeen (s : State) (place : Nat) (level : Bool) : Bool :=
  s.running && s.spc.inForce.enable && !s.spc.selectTaken &&
    (match s.spc.modeInForce with
      | .slave => s.spc.selectLevel != some level
      | .master => s.count.toNat % Config.sampleTicks == place)

/-- A rising edge of SPC's bit clock is seen at the present tick: SPC is enabled, the clock has not risen at this tick before, and in
MASTER mode the part itself makes the edge, 4 ticks after each multiple of 8 (R144, R151). -/
def State.spcClockSeen (s : State) : Bool :=
  s.running && s.spc.inForce.enable && !s.spc.clockTaken && (s.spc.modeInForce == .slave || s.count.toNat % 8 == 4)

/-- A word-select edge at the clock watch (R153): WATCHING and LOST take the edge's time, IDLE stays. -/
def ClockWatch.edge (w : ClockWatch) (t : Time) : ClockWatch :=
  match w with
  | .idle => .idle
  | .watching _ => .watching t
  | .lost => .watching t

/-- The first `width` bits of a slot as an unsigned number, most significant first; the bits not received read 0 (R151). -/
def bitsValue (width : Nat) (bits : List Bool) : Nat :=
  (List.range width).foldl (fun n k => 2 * n + (bits.getD k false).toNat) 0

/-- The number of bits of a width. -/
def Width.bits : Width → Nat
  | .w16 => 16
  | .w24 => 24

/-- The value of a slot (R151): two's complement, a 16-bit value multiplied by 256. -/
def slotValue (w : Width) (bits : List Bool) : Int :=
  match w with
  | .w24 => (BitVec.ofNat 24 (bitsValue 24 bits)).toInt
  | .w16 => (BitVec.ofNat 16 (bitsValue 16 bits)).toInt * 256

/-- A rising edge of the bit clock within a slot, the bits of the slot so far (R151): with DELAYED the first carries no bit; after
the width is complete the edges are ignored. -/
def takeBit (f : PortFormat) (clocked : Bool) (bits : List Bool) (bit : Bool) : List Bool :=
  if (f.alignment == .delayed && !clocked) || decide (f.width.bits ≤ bits.length) then bits else bits ++ [bit]

/-- The sample in assembly after a rising edge of the bit clock, by the format its sample period began under (R143, R151). -/
def Assembly.clock (a : Assembly) (bit : Bool) : Assembly :=
  match a.slot with
  | .left => { a with clocked := true, leftBits := takeBit a.format a.clocked a.leftBits bit }
  | .right => { a with clocked := true, rightBits := takeBit a.format a.clocked a.rightBits bit }

/-- The left and right values of a sample, by the format its sample period began under (R143, R151). -/
def Assembly.values (a : Assembly) : Int × Int :=
  (slotValue a.format.width a.leftBits, slotValue a.format.width a.rightBits)

/-- SPC_BIT_TAKEN (R151). -/
def execSpcBitTaken (bit : Bool) (s : State) : Result :=
  .next (
    if s.spcClockSeen then
      { s with spc := { s.spc with assembly := s.spc.assembly.map (fun a => a.clock bit), clockTaken := true } }
    else s)

/-- The bits of a slot at the transition that ends it: those not received read 0 (R151). -/
def padBits (w : Width) (bits : List Bool) : List Bool := bits ++ List.replicate (w.bits - bits.length) false

/-- The sample in assembly after a transition to the level of the right slot (R150, R151): the slot open till then is complete, its bits
not received read 0, and the right slot is open. Within the right slot the transition, which only a change of polarity makes, ends it,
and later bits are none of it (log 33). -/
def Assembly.endSlot (a : Assembly) : Assembly :=
  match a.slot with
  | .left => { a with slot := .right, clocked := false, leftBits := padBits a.format.width a.leftBits }
  | .right => { a with clocked := false, rightBits := padBits a.format.width a.rightBits }

/-- SPC_WORD_SELECT_EDGE (R150, R151, R153): the transition into the right slot. -/
def execSpcWordSelectEdge (s : State) : Result :=
  .next (
    if s.spcEdgeSeen 256 (!s.spc.leftLevel) then
      { s with spc := { s.spc with
        assembly := s.spc.assembly.map Assembly.endSlot
        watch := s.spc.watch.edge s.count
        selectLevel := some (!s.spc.leftLevel)
        selectTaken := true } }
    else s)

/-! ## PCFG (R154) -/

/-- A port's format from its codes. -/
def carriedFormat (r : PcfgReq) : Option PortFormat :=
  match readBool r.enable, readWidth r.width, readWsPolarity r.polarity, readAlignment r.alignment with
  | some e, some w, some p, some a => some { enable := e, width := w, polarity := p, alignment := a }
  | _, _, _, _ => none

/-- The first five bytes of PCFG's fields. -/
def formatFields (f : PortFormat) : List Byte :=
  bool8 f.enable ++ put8 f.width.code ++ put8 f.polarity.code ++ put8 f.alignment.code

/-- PCFG's fields for an output port (R154). -/
def outPortFields (m : Mixer) (p : OutPort) (v : OutPortState) : List Byte :=
  put8 (outPortCode p) ++ formatFields v.format ++ nat16 v.latency ++ nat16 (m.master.get p) ++ put8 0
    ++ nat16 (m.clips.get p) ++ nat16 v.hang ++ bool8 v.active ++ put8 0

/-- PCFG's fields for SPC (R154, R201). -/
def inPortFields (v : InPortState) : List Byte :=
  put8 2 ++ formatFields v.format ++ put16 0 ++ put16 0 ++ put8 v.mode.code ++ put16 0 ++ put16 0 ++ put8 0
    ++ put8 v.watch.code

/-- PCFG's work on an output port (R154, R140). The carried clock mode is not used. Whether a code of it outside its list is refused, as
R200 has it, or passes check 1 of R154, which tests the code for SPC alone, is a free value (log 34). -/
def configOutPort (r : PcfgReq) (f : PortFormat) (p : OutPort) (s : State) : State × List Byte :=
  if (readClockMode r.clockMode).isNone && Config.refusesUnusedClockMode then (s, refuse .eRange)
  else
    let v := { s.ports.get p with format := f, latency := r.latency.toNat }
    let m := { s.mixer with master := s.mixer.master.set p r.master.toNat }
    ({ s.setPort p v with mixer := m }, accept (outPortFields m p v))

/-- PCFG's work on SPC (R154): its clock mode code is known, and while a capture lane is RUNNING nothing may change. -/
def configInPort (r : PcfgReq) (f : PortFormat) (s : State) : State × List Byte :=
  match readClockMode r.clockMode with
  | none => (s, refuse .eRange)
  | some mode =>
    if s.lanes.toList.any Lane.isRunning && (f != s.spc.format || mode != s.spc.mode) then (s, refuse .eState)
    else
      let v := { s.spc with format := f, mode := mode }
      ({ s with spc := v }, accept (inPortFields v))

/-- PCFG's work (R154). -/
def portOwner (r : PcfgReq) (s : State) : State × List Byte :=
  match carriedFormat r with
  | none => (s, refuse .eRange)
  | some f =>
    match readOutPort r.port with
    | some p => configOutPort r f p s
    | none => if r.port = 2 then configInPort r f s else (s, refuse .eRange)

/-- PCFG (R154). -/
def execPcfg (tag : Byte) (r : PcfgReq) (s : State) : Result := .next (s.serve (.pcfg tag r) (portOwner r))

/-! ## The lines the ports drive (R144, R150; log 20) -/

/-- Bit clock, word select and data of a port at a tick. -/
structure PortLines where
  bitClock : Bool
  wordSelect : Bool
  data : Bool
  deriving DecidableEq, Repr

/-- The bit clock at a tick: it falls at multiples of 8 and rises 4 ticks later (R144). -/
def bitClockAt (t : Time) : Bool := decide (4 ≤ t.toNat % 8)

/-- The word select at a tick, by polarity (R144). -/
def wordSelectAt (p : WsPolarity) (t : Time) : Bool :=
  let right := decide (256 ≤ t.toNat % 512)
  match p with
  | .leftLow => right
  | .leftHigh => !right

/-- The bit of a value in bit clock `n` of its slot: most significant first, after one 0 with DELAYED, 0 after the last (R144). -/
def slotBit (f : PortFormat) (v : Int) (n : Nat) : Bool :=
  let place := match f.alignment with
    | .justified => some n
    | .delayed => if n = 0 then none else some (n - 1)
  match place with
  | none => false
  | some i => if i < f.width.bits then (BitVec.ofInt f.width.bits v).getMsbD i else false

/-- The lines of an output port at a tick: all low while disabled (R144, R147). -/
def OutPortState.linesAt (p : OutPortState) (t : Time) : PortLines :=
  if p.inForce.enable then
    let n := t.toNat % 512 / 8
    { bitClock := bitClockAt t, wordSelect := wordSelectAt p.inForce.polarity t,
      data := if n < 32 then slotBit p.inForce p.staging.1 n else slotBit p.inForce p.staging.2 (n - 32) }
  else { bitClock := false, wordSelect := false, data := false }

/-- The bit clock and word select that SPC drives in MASTER mode; none in SLAVE mode, where both are inputs (R150). -/
def InPortState.drivenAt (p : InPortState) (t : Time) : Option (Bool × Bool) :=
  match p.modeInForce with
  | .slave => none
  | .master => some (if p.inForce.enable then (bitClockAt t, wordSelectAt p.inForce.polarity t) else (false, false))

end Sys2Proof.Machine
end

