-- ==== Sys2Proof/Machine/CaptureLanes.lean ====
section
/-! DEFINITION. Capture lanes: taking samples, beginning and closing frames, overrun, clock loss, and LFETCH (R156 to R167); the
opening edge of SPC (R152) and the loss of its clock (R153). -/

namespace Sys2Proof.Machine

/-! ## Beginning a frame (R161) -/

/-- The words a capture frame of the lane's present frame size needs (R161). -/
def LaneConfig.captureWords (c : LaneConfig) : Nat := c.frameSize * c.channels

/-- Room or a quota slot is lacking for a new capture frame (R161). -/
def Lane.lacksRoom (l : Lane) : Bool :=
  decide (l.free < l.config.captureWords) || decide (l.config.quota ≤ l.queue.length)

/-- The oldest closed frame is released as an overrun (R161). -/
def Lane.overrun (l : Lane) : Lane :=
  { l.releaseHead.raise LaneFlag.overrun with
    captureCounters := { l.captureCounters with overruns := satInc l.captureCounters.overruns } }

/-- Overruns, one frame after another, until room and quota allow or no closed frame is left (R161). -/
def Lane.makeRoom : Nat → Lane → Lane
  | 0, l => l
  | n + 1, l => if l.lacksRoom && !l.queue.isEmpty then Lane.makeRoom n l.overrun else l

/-- The record of a capture frame as it begins (R161). Its stream, sequence, epoch and pts are those of its close (R163); what they hold
before it is not stated, and 0, 0, 0 and absent is the model's choice (log 37). -/
def Lane.newFilling (l : Lane) (stamp : Time) : Filling :=
  { record := { status := .filling, stream := 0, seq := 0, epoch := 0, pts := none, samples := l.config.frameSize,
                channels := l.config.channels, offset := l.writeOffset, disc := l.discPending, endMark := false, tag := none },
    written := 0, first := stamp }

/-- A capture frame begins with the sample of a stamp (R161). -/
def Lane.beginFrame (l : Lane) (stamp : Time) : Lane :=
  let l1 := l.makeRoom l.queue.length
  if l1.free < l1.config.captureWords then l1
  else { l1.allocate l1.config.captureWords with filling := some (l1.newFilling stamp), discPending := false }

/-! ## Writing and closing (R162, R163) -/

/-- The values a lane takes of a sample: the left one, or both (R160). -/
def LaneConfig.taken (c : LaneConfig) (left right : Int) : List Int :=
  if c.channels = 1 then [left] else [left, right]

/-- The ring offset at which the next sample of the frame being filled is written (R162). -/
def Filling.nextOffset (f : Filling) : Nat := f.record.offset + f.written * f.record.channels

/-- The closed record of a full frame (R163). -/
def closedRecord (t : Tracker) (l : Lane) (f : Filling) : FrameRecord :=
  { f.record with
    status := .queued
    stream := l.runNumber
    seq := l.lastSeq + 1
    epoch := t.epoch
    pts := t.house? (addTicks f.first (-(l.config.inputLatency : Int)))
    endMark := false
    tag := none }

/-- Close a full frame (R163). -/
def Lane.closeFrame (t : Tracker) (l : Lane) (f : Filling) : Lane :=
  let l1 := { l with
    queue := l.queue ++ [closedRecord t l f]
    lastSeq := l.lastSeq + 1
    filling := none
    captureCounters := { l.captureCounters with closed := satInc l.captureCounters.closed } }
  if l1.queue.length = l.config.dataMark then l1.raise LaneFlag.data else l1

/-- Write one sample into the frame being filled, and close it when it is full (R160, R162, R163). -/
def Lane.writeSample (t : Tracker) (left right : Int) (l : Lane) (store : Memory) : Lane × Memory :=
  match l.filling with
  | none => (l, store)
  | some f =>
    let store1 := writeSamples l.config f.nextOffset (l.config.taken left right) store
    let f1 := { f with written := f.written + 1 }
    if f1.record.samples ≤ f1.written then (l.closeFrame t f1, store1) else ({ l with filling := some f1 }, store1)

/-- The lane takes a handed sample when its stamp is not earlier than its entry time (R160). -/
def Lane.takesStamp (l : Lane) (stamp : Time) : Bool :=
  match l.entryTime with
  | none => false
  | some e => notEarlier stamp e

/-- A RUNNING capture lane is handed a sample with its stamp (R160). -/
def Lane.takeSample (t : Tracker) (stamp : Time) (left right : Int) (l : Lane) (store : Memory) : Lane × Memory :=
  if l.takesStamp stamp then
    (if l.filling.isSome then l else l.beginFrame stamp).writeSample t left right store
  else (l, store)

/-- The capture lane that is RUNNING, if one is (R152). -/
def State.runningLane (s : State) : Option LaneId := LaneId.list.find? (fun i => (s.lanes.get i).isRunning)

/-- Hand a completed sample to the RUNNING capture lane; it is discarded when there is none (R152). -/
def State.deliver (s : State) (a : Assembly) : State :=
  match s.runningLane with
  | none => s
  | some i =>
    let r := (s.lanes.get i).takeSample s.tracker a.opened a.values.1 a.values.2 s.store
    { s.setLane i r.1 with store := r.2 }

/-- The sample that begins in assembly at an opening edge, under the format in force there (R143, R152). -/
def openAssembly (t : Time) (f : PortFormat) : Assembly :=
  { opened := t, format := f, slot := .left, clocked := false, leftBits := [], rightBits := [] }

/-- Hand over the sample in assembly, where there is one. A sample whose right slot never opened is none (R152): one that a change of
the clock mode cuts off within its left slot is handed to no lane (log 33). -/
def State.deliverAssembly (s : State) : State :=
  match s.spc.assembly with
  | none => s
  | some a =>
    match a.slot with
    | .left => s
    | .right => s.deliver a

/-- SPC at an opening edge at a tick: the next sample begins and the clock watch takes the edge (R152, R153). -/
def InPortState.openingEdge (p : InPortState) (t : Time) : InPortState :=
  { p with
    assembly := some (openAssembly t p.inForce)
    watch := p.watch.edge t
    selectLevel := some p.leftLevel
    selectTaken := true }

/-- SPC_SAMPLE_COMPLETE (R150, R152, R153): an opening edge. The sample in assembly, its right slot open, is complete and handed
over, the next one begins, and the clock watch takes the edge. -/
def execSpcSampleComplete (s : State) : Result :=
  .next (
    if s.spcEdgeSeen 0 s.spc.leftLevel then { s.deliverAssembly with spc := s.spc.openingEdge s.count } else s)

/-! ## Loss of the input clock (R153, R164) -/

/-- The input clock is lost: no edge for 65,536 ticks while WATCHING (R153). -/
def State.clockLossDue (s : State) : Bool :=
  s.running && (match s.spc.watch with
    | .watching w => decide (Config.clockLossTicks ≤ sdiff s.count w)
    | .idle => false
    | .lost => false)

/-- A RUNNING capture lane is told of the loss (R164). -/
def Lane.clockLost (l : Lane) : Lane :=
  if l.isRunning then { l.discardFilling with discPending := true } else l

/-- INPUT_CLOCK_LOSS (R153, R164). -/
def execInputClockLoss (s : State) : Result :=
  .next (
    if s.clockLossDue then
      { s with
        spc := { s.spc with assembly := none, watch := .lost }
        lanes := s.lanes.mapId (fun _ (l : Lane) => l.clockLost) }.raisePort .inClk
    else s)

/-! ## LFETCH (R165) -/

/-- The three bytes of a 24-bit sample, big-endian. -/
def sampleBytes (x : Int) : List Byte :=
  let v := BitVec.ofInt 24 x
  [v.extractLsb' 16 8, v.extractLsb' 8 8, v.extractLsb' 0 8]

/-- The words of a frame in payload order (R53, R165). -/
def frameWordsOf (store : Memory) (c : LaneConfig) (f : FrameRecord) : List Word :=
  (List.range f.words).map (fun n => store.read (c.wordAt (f.offset + n)))

/-- LFETCH's fields (R165). -/
def fetchFields (store : Memory) (c : LaneConfig) (f : FrameRecord) (remaining : Nat) : List Byte :=
  put16 f.stream ++ put16 f.seq ++ put8 f.epoch ++ optField 6 put48 f.pts ++ nat16 f.samples ++ nat8 f.channels
    ++ bool8 f.disc ++ nat8 remaining ++ ((frameWordsOf store c f).map (fun w => sampleBytes (wordSample w))).flatten

/-- LFETCH's work (R165). -/
def fetchOwner (n : Byte) (s : State) : State × List Byte :=
  match readLane n with
  | none => (s, refuse .eRange)
  | some i =>
    let l := s.lanes.get i
    if !l.enabled || l.config.direction != .capture then (s, refuse .eState)
    else
      match l.queue with
      | [] => (s, refuse .eNorec)
      | f :: rest => (s.setLane i l.releaseHead, accept (fetchFields s.store l.config f rest.length))

/-- LFETCH (R165). -/
def execLfetch (tag : Byte) (n : Byte) (s : State) : Result := .next (s.serve (.lfetch tag n) (fetchOwner n))

end Sys2Proof.Machine
end

