-- ==== Sys2Proof/Machine/Cues.lean ====
section
/-! DEFINITION. Cue timers: reports, the pulse end, the expiry tests, what an expiry does, and CSET, CRUN (R168 to R179). -/

namespace Sys2Proof.Machine

/-! ## The work of one cue at a boundary (R169) -/

/-- What one cue's work at a boundary leaves: the cue, the flags it sets, and the action it hands over. -/
structure CueWork where
  cue : Cue
  flags : List CueFlag
  handed : CueAction
  deriving DecidableEq, Repr

/-- The outcome that reached a cue at this boundary, recorded as its last outcome before its own work begins (R175). -/
def Cue.recordOutcome (q : Cue) (o : Option Bool) : Cue :=
  match o with
  | none => q
  | some true => { q with outcome := .succeeded }
  | some false => { q with outcome := .failed }

/-- The flags that an outcome calls for (R175): FAIL n for a failure in either report mode, FIRED n for a success whose report was
due. -/
def Cue.outcomeFlags (c : CueId) (q : Cue) (k : BlockIndex) (o : Option Bool) : List CueFlag :=
  match o with
  | none => []
  | some true => if q.reportDue = some k then [.fired c] else []
  | some false => [.fail c]

/-- Step 1: a report due at this boundary is made and becomes absent (R169, R175). -/
def Cue.clearReport (q : Cue) (k : BlockIndex) : Cue :=
  if q.reportDue = some k then { q with reportDue := none } else q

/-- Step 2: the end of a pulse (R169, R173). -/
def Cue.endPulse (q : Cue) : Cue :=
  match q.line with
  | .pulse => { q with level := false }
  | .toggle => q

/-- The gate counts a boundary (R172): no gate, or a lane that is PLAYING or RUNNING as its work left it. -/
def gateCounts (lanes : LaneMap Lane) (gate : Option LaneId) : Bool :=
  match gate with
  | none => true
  | some i =>
    match (lanes.get i).config.direction with
    | .play => (lanes.get i).state == .playing
    | .capture => (lanes.get i).state == .running

/-- The advances an EVERY cue's target takes until it is later than house time (R171). The target is not later than `h`. -/
def Cue.advances (q : Cue) (h : Time) : Nat := (sdiff h q.target).toNat / q.interval + 1

/-- The target of an EVERY cue after its expiry, and the periods it skipped (R171). -/
def Cue.advance (q : Cue) (h : Time) : Cue :=
  { q with
    target := addTicks q.target ((q.advances h * q.interval : Nat) : Int)
    skipped := satAdd q.skipped (q.advances h - 1) }

/-- The target has been reached (R170); a cue waits while H() is not defined. -/
def Cue.reached (q : Cue) (h : Time) : Bool := notEarlier h q.target

/-- Step 3: the expiry test of a RUNNING cue (R170 to R172); the cue after it and whether it expired. -/
def Cue.test (house : Option Time) (counted : Bool) (q : Cue) : Cue × Bool :=
  match q.mode, house with
  | .at, some h => if q.reached h then ({ q with state := .expired }, true) else (q, false)
  | .every, some h => if q.reached h then (q.advance h, true) else (q, false)
  | .at, none => (q, false)
  | .every, none => (q, false)
  | .blocks, _ =>
    if counted then
      (if q.count = 0 then ({ q with count := q.reload }, true) else ({ q with count := q.count - 1 }, false))
    else (q, false)

/-- The line effect of an expiry (R173). -/
def Cue.lineEffect (q : Cue) : Bool :=
  match q.line with
  | .pulse => true
  | .toggle => !q.level

/-- The report of an expiry is made at once (R175). -/
def Cue.reportsNow (q : Cue) : Bool := q.report == .onExpiry || q.action == .none

/-- Step 4: an expiry at boundary k (R169, R173 to R175). -/
def Cue.expire (q : Cue) (k : BlockIndex) : Cue :=
  { q with
    expiries := satInc q.expiries
    lastExpiry := some k
    level := q.lineEffect
    outcome := if q.action = .none then q.outcome else .awaited
    reportDue := if q.reportsNow then q.reportDue else some (k + 1) }

/-- A cue's work at boundary k, with house time there, its gate's verdict and the outcome that reached it (R169). -/
def Cue.boundaryWork (c : CueId) (k : BlockIndex) (house : Option Time) (counted : Bool) (o : Option Bool) (q : Cue) : CueWork :=
  let q1 := ((q.recordOutcome o).clearReport k).endPulse
  let made := q.outcomeFlags c k o
  if q1.state = .running then
    let r := q1.test house counted
    if r.2 then
      { cue := r.1.expire k, flags := made ++ (if r.1.reportsNow then [.fired c] else []), handed := r.1.action }
    else { cue := r.1, flags := made, handed := .none }
  else { cue := q1, flags := made, handed := .none }

/-! ## Handing over (R174) -/

/-- Put an action record on a lane's list (R103). -/
def State.handToLane (s : State) (i : LaneId) (a : LaneAction) : State :=
  s.setLane i { s.lanes.get i with actions := insertAction a (s.lanes.get i).actions }

/-- Put a gain action record on the mixer's list; a ramp length of 0 is handed over as 1 (R133). -/
def State.handToMixer (s : State) (a : GainAction) : State :=
  { s with mixer := { s.mixer with actions := insertGain { a with ramp := max 1 a.ramp } s.mixer.actions } }

/-- An expiring cue hands its action over (R174). -/
def State.handOver (s : State) (c : CueId) (k : BlockIndex) (a : CueAction) : State :=
  match a with
  | .none => s
  | .go i => s.handToLane i { cue := c, action := .go, expiry := k }
  | .halt i flush => s.handToLane i { cue := c, action := .halt flush, expiry := k }
  | .gain i p g r => s.handToMixer { cue := c, lane := i, port := p, gain := g, ramp := r, expiry := k }

/-- Set several flags of the cue group. -/
def State.raiseCues (s : State) (fs : List CueFlag) : State := fs.foldl State.raiseCue s

/-- Replace one cue. -/
def State.setCue (s : State) (c : CueId) (q : Cue) : State := { s with cues := s.cues.set c q }

/-- The outcome that reached a cue at this boundary. -/
def outcomeOf (outcomes : List (CueId × Bool)) (c : CueId) : Option Bool :=
  (outcomes.find? (fun o => o.1 == c)).map Prod.snd

/-- One cue's work at boundary k, with what it hands over and the flags it sets (R169). -/
def State.cueWork (k : BlockIndex) (outcomes : List (CueId × Bool)) (s : State) (c : CueId) : State :=
  let q := s.cues.get c
  let w := q.boundaryWork c k (s.tracker.house? (boundaryTime k)) (gateCounts s.lanes q.gate) (outcomeOf outcomes c)
  ((s.setCue c w.cue).handOver c k w.handed).raiseCues w.flags

/-- The four cues in number order. -/
def CueId.list : List CueId := [.cue0, .cue1, .cue2, .cue3]

/-- The four cues' work at boundary k (R169). -/
def State.cuesWork (s : State) (k : BlockIndex) (outcomes : List (CueId × Bool)) : State :=
  CueId.list.foldl (State.cueWork k outcomes) s

/-! ## CSET (R176, R177) -/

/-- The carried action (R176); none where a code or number that applies is unknown. The flush and port codes are checked whatever the
action (R200; log 16). -/
def readCueAction (r : CsetReq) : Option CueAction :=
  match readBool r.flush with
  | none => none
  | some flush =>
    if 2 < r.port.toNat then none
    else
      match r.action.toNat with
      | 0 => some .none
      | 1 => (readLane r.lane).map .go
      | 2 => (readLane r.lane).map (fun i => .halt i flush)
      | 3 =>
        match readLane r.lane, readOutPort r.port with
        | some i, some p => some (.gain i p r.gain.toNat r.ramp.toNat)
        | _, _ => none
      | _ => none

/-- The interval a CSET applies (R176). -/
def cueInterval (r : CsetReq) : Nat := clampNat 32768 (2 ^ 40) r.interval.toNat

/-- A cue with the carried configuration, its interval clamped and its status kept; none where a code is unknown (R176). -/
def Cue.configured (q : Cue) (r : CsetReq) : Option Cue :=
  match readCueMode r.mode, readGate r.gate, readCueAction r, readReport r.report, readLineMode r.line with
  | some mode, some gate, some action, some report, some line =>
    some { q with
      mode := mode, target := r.target, interval := cueInterval r, reload := r.reload.toNat, gate := gate, action := action,
      report := report, line := line }
  | _, _, _, _, _ => none

/-- A cue action's code. -/
def CueAction.code : CueAction → Byte
  | .none => 0
  | .go _ => 1
  | .halt _ _ => 2
  | .gain _ _ _ _ => 3

/-- The fields of a cue action in the record: lane, flush, port, gain, ramp; those that do not apply are 0 (R201; log 16). -/
def CueAction.fields : CueAction → List Byte
  | .none => nat8 0 ++ bool8 false ++ put8 0 ++ nat16 0 ++ nat8 0
  | .go i => nat8 i.num ++ bool8 false ++ put8 0 ++ nat16 0 ++ nat8 0
  | .halt i flush => nat8 i.num ++ bool8 flush ++ put8 0 ++ nat16 0 ++ nat8 0
  | .gain i p g r => nat8 i.num ++ bool8 false ++ put8 (outPortCode p) ++ nat16 g ++ nat8 r

/-- The cue record in an answer (R176, field table). -/
def Cue.fields (c : CueId) (q : Cue) : List Byte :=
  nat8 c.num ++ put8 q.mode.code ++ put48 q.target ++ nat48 q.interval ++ nat16 q.reload ++ gateCode q.gate
    ++ put8 q.action.code ++ q.action.fields ++ put8 q.report.code ++ put8 q.line.code ++ put8 q.state.code ++ nat16 q.count
    ++ bool8 q.level ++ nat16 q.expiries ++ nat16 q.skipped ++ optField 6 (fun k => nat48 k.toNat) q.lastExpiry
    ++ put8 q.outcome.code ++ optField 6 (fun k => nat48 k.toNat) q.reportDue

/-- CSET's work (R176). -/
def cueSetOwner (r : CsetReq) (s : State) : State × List Byte :=
  match readCue r.cue with
  | none => (s, refuse .eRange)
  | some c =>
    let q := s.cues.get c
    match q.configured r with
    | none => (s, refuse .eRange)
    | some q1 =>
      if q.state = .running ∧ q1.mode ≠ q.mode then (s, refuse .eState)
      else (s.setCue c q1, acceptOr (cueInterval r != r.interval.toNat) (q1.fields c))

/-- CSET (R176). -/
def execCset (tag : Byte) (r : CsetReq) (s : State) : Result := .next (s.serve (.cset tag r) (cueSetOwner r))

/-! ## CRUN (R178) -/

/-- The preset choice (R178). -/
def Cue.preset (q : Cue) : Cue :=
  match q.mode with
  | .blocks => { q with count := q.reload }
  | .at => if q.state = .expired then { q with state := .stopped } else q
  | .every => if q.state = .expired then { q with state := .stopped } else q

/-- The run choice, or its refusal (R178). -/
def Cue.run (q : Cue) : Option Cue :=
  match q.state with
  | .stopped => some { q with state := .running }
  | .running => some q
  | .expired => none

/-- The three choices in their order; none where the run is refused (R178). -/
def Cue.choose (q : Cue) (preset stop run : Bool) : Option Cue :=
  let q1 := if preset then q.preset else q
  if stop then some { q1 with state := .stopped }
  else if run then q1.run
  else some q1

/-- CRUN's work (R178, R200). -/
def cueRunOwner (r : CrunReq) (s : State) : State × List Byte :=
  match readCue r.cue with
  | none => (s, refuse .eRange)
  | some c =>
    if (r.choices &&& 0xF8) != 0 || (r.choices.getLsbD 1 && r.choices.getLsbD 2) then (s, refuse .eRange)
    else
      match (s.cues.get c).choose (r.choices.getLsbD 0) (r.choices.getLsbD 1) (r.choices.getLsbD 2) with
      | none => (s, refuse .eState)
      | some q => (s.setCue c q, accept (q.fields c))

/-- CRUN (R178). -/
def execCrun (tag : Byte) (r : CrunReq) (s : State) : Result := .next (s.serve (.crun tag r) (cueRunOwner r))

end Sys2Proof.Machine
end

