-- ==== Sys2Proof/Machine/GeneralLines.lean ====
section
/-! DEFINITION. The six general lines: the levels they show, GSET and GREAD (R180 to R183). -/

namespace Sys2Proof.Machine

/-- The level the part drives on a line; none for an INPUT line (R180). -/
def State.driven (s : State) (l : Line) : Option Bool :=
  match l.function with
  | .input => none
  | .output => some l.stored
  | .cue c => some (s.cues.get c).level
  | .cueInverted c => some (!(s.cues.get c).level)
  | .lock => some (s.tracker.state == .locked || s.tracker.state == .ref)
  | .activeA => some s.ports.spa.active
  | .activeB => some s.ports.spb.active

/-- The level on a line at the present tick (R182, R183): the level driven, or for an INPUT line the level at its contact, which is a
free value of the present reading (log 7). -/
def State.lineLevel (s : State) (i : LineId) : Bool :=
  (s.driven (s.lines.get i)).getD (Config.contactLevel s.samples i.num)

/-- A reading of the lines has been made: the next one meets other free values (log 7). -/
def State.sampled (s : State) : State := { s with samples := s.samples + 1 }

/-- A line in an answer: function, cue number, stored level, level (field table). -/
def State.lineFields (s : State) (i : LineId) : List Byte :=
  let l := s.lines.get i
  put8 l.function.code ++ nat8 l.function.cueNum ++ bool8 l.stored ++ bool8 (s.lineLevel i)

/-- Replace one line. -/
def State.setLine (s : State) (i : LineId) (l : Line) : State := { s with lines := s.lines.set i l }

/-- GSET's work (R182). -/
def lineOwner (r : GsetReq) (s : State) : State × List Byte :=
  match readLine r.line, readFunction r.function r.cue, readBool r.level with
  | some i, some f, some v =>
    let s1 := s.setLine i { function := f, stored := v }
    (s1.sampled, accept (nat8 i.num ++ s1.lineFields i))
  | _, _, _ => (s, refuse .eRange)

/-- GSET (R182). -/
def execGset (tag : Byte) (r : GsetReq) (s : State) : Result := .next (s.serve (.gset tag r) (lineOwner r))

/-- GREAD's work (R183). -/
def linesOwner (s : State) : State × List Byte :=
  (s.sampled, accept ((LineId.list.map s.lineFields).flatten))

/-- GREAD (R183). -/
def execGread (tag : Byte) (s : State) : Result := .next (s.serve (.gread tag) linesOwner)

end Sys2Proof.Machine
end

