-- ==== Sys2Proof/Machine/Boundary.lean ====
section
/-! DEFINITION. A block boundary of the whole part, in the order its blocks read one another (R4, R84, R141, R149, R169, R175), and
the start of the local count (R3, R199). -/

namespace Sys2Proof.Machine

/-- The index of the boundary at the present tick (R4). -/
def State.boundaryIndex (s : State) : BlockIndex := blockIndex s.count

/-- What every lane's work at the present boundary reads (R43, R109). -/
def State.boundaryEnv (s : State) : BoundaryEnv :=
  { store := s.store, tracker := s.tracker, block := s.boundaryIndex, now := s.count, house := s.emissionHouse? s.count }

/-- The six lanes' work at the present boundary (R87, R104, R159). -/
def State.lanesWork (s : State) : LaneMap LaneWork := s.lanes.mapId (fun _ l => l.boundaryWork s.boundaryEnv)

/-- The lanes after their work. -/
def workedLanes (w : LaneMap LaneWork) : LaneMap Lane := w.mapId (fun _ x => x.lane)

/-- The lanes' blocks. -/
def workedBlocks (w : LaneMap LaneWork) : LaneMap Block := w.mapId (fun _ x => x.block)

/-- The outcomes that reach the cues at a boundary: those of the lanes, and the successes of the gain actions applied there
(R104, R134). -/
def boundaryOutcomes (w : LaneMap LaneWork) (m : Mixer) (k : BlockIndex) : List (CueId × Bool) :=
  (w.toList.map LaneWork.outcomes).flatten ++ (m.dueActions k).map (fun a => (a.cue, true))

/-- Replace the lanes. -/
def State.setLanes (s : State) (lanes : LaneMap Lane) : State := { s with lanes := lanes }

/-- The CLIP flag of a port. -/
def clipFlag : OutPort → PortFlag
  | .spa => .clipA
  | .spb => .clipB

/-- The mixer's counting of a port's clips, with the port's flag (R139). -/
def State.clipWork (s : State) (p : OutPort) (blocks : LaneMap Block) : State :=
  let enabled := (s.ports.get p).format.enable
  let s1 := { s with mixer := s.mixer.countClips p enabled blocks }
  if enabled && s.mixer.portClips p blocks != 0 then s1.raisePort (clipFlag p) else s1

/-- An output port's work at the present boundary: it takes its block and steps its hang count (R146, R147, R149). -/
def State.outPortWork (s : State) (p : OutPort) (blocks : LaneMap Block) : State :=
  s.setPort p ((s.ports.get p).boundaryWork s.count (s.mixer.portPairs p blocks) (s.mixer.sounding p (playingLanes s.lanes)))

/-- A capture lane entered RUNNING in the lanes' work at a boundary (R153): it is RUNNING in a run that it was not in before. -/
def runEntered (before after : LaneMap Lane) : Bool :=
  LaneId.list.any (fun i => (after.get i).isRunning && (after.get i).runNumber != (before.get i).runNumber)

/-- SPC's work at the present boundary: its configuration comes into force, and its clock watch follows its condition; `entered`: a
capture lane entered RUNNING at this boundary (R143, R150, R153). -/
def State.inPortWork (s : State) (entered : Bool) : State := { s with spc := s.spc.boundaryWork }.refreshWatch entered

/-- The mixer's work on its levels at the present boundary, from the lanes as their work left them (R141). -/
def State.mixerWork (s : State) : State := { s with mixer := s.mixer.levels s.boundaryIndex s.lanes }

/-- The work of the mixer and the ports at the present boundary, from the blocks the lanes formed (R141, R146, R149). -/
def State.outputWork (s : State) (blocks : LaneMap Block) (entered : Bool) : State :=
  let s1 := (s.mixerWork.clipWork .spa blocks).clipWork .spb blocks
  ((s1.outPortWork .spa blocks).outPortWork .spb blocks).inPortWork entered

/-- The work of every block at the present boundary: lanes, mixer, ports, cues (R4). -/
def State.boundaryWork (s : State) : State :=
  let w := s.lanesWork
  let outcomes := boundaryOutcomes w s.mixer s.boundaryIndex
  let s1 := { s with boundaryDue := false }.setLanes (workedLanes w)
  (s1.outputWork (workedBlocks w) (runEntered s.lanes s1.lanes)).cuesWork s.boundaryIndex outcomes

/-- BLOCK_BOUNDARY (R4): the boundary of the present tick, while it has not been taken. -/
def execBlockBoundary (s : State) : Result :=
  .next (if s.running && s.boundaryDue then s.boundaryWork else s)

/-- COUNT_START (R3, R199): the tick that is local count 0. BOOT is set, and boundary 0 is taken. -/
def execCountStart (s : State) : Result :=
  .next (if s.running then s
    else ({ s with running := true, count := 0 }.raiseTracker .boot).boundaryWork)

end Sys2Proof.Machine
end

