-- ==== Sys2Proof/Machine/Capture.lean ====
section
/-! DEFINITION. Strobe capture: strobe edges, the capture queue, its expiries, and TSTROBE, TCAPS, TINJ (R6 to R17). -/

namespace Sys2Proof.Machine

/-- The spacing test of an edge at a count (R8). -/
def StrobeCapture.spaced (c : StrobeCapture) (count : Time) : Bool :=
  match c.lastEdge with
  | none => true
  | some e => decide ((c.spacing.toNat : Int) ≤ sdiff count e)

/-- The order test of a new entry's local time (R9). -/
def StrobeCapture.ordered (c : StrobeCapture) (t : Time) : Bool :=
  match c.queue.getLast? with
  | none => true
  | some e => later t e.time

/-- The queue is full, so that an append discards the oldest entry (R11). -/
def StrobeCapture.full (c : StrobeCapture) : Bool := decide (Config.captureDepth ≤ c.queue.length)

/-- Append an entry with the next capture sequence, after the overflow of a full queue (R10, R11). -/
def StrobeCapture.append (c : StrobeCapture) (t : Time) (o : Origin) : StrobeCapture :=
  let kept := if c.full then c.queue.tail else c.queue
  { c with
    queue := kept ++ [{ seq := c.nextSeq, time := t, origin := o }]
    nextSeq := c.nextSeq + 1
    lost := if c.full then satInc c.lost else c.lost }

/-- Append an entry, with CAPLOST when the oldest is lost (R10, R11). -/
def State.appendCapture (s : State) (t : Time) (o : Origin) : State :=
  let s1 := { s with strobe := s.strobe.append t o }
  if s.strobe.full then s1.raiseTracker .capLost else s1

/-- The polarity chooses this direction of transition (R7). -/
def StrobePolarity.chooses : StrobePolarity → EdgeDir → Bool
  | .rising, .rising => true
  | .falling, .falling => true
  | .rising, .falling => false
  | .falling, .rising => false

/-- STROBE_EDGE (R7 to R11): a transition of the chosen direction that passes the spacing and order tests is appended and becomes
the last accepted edge. -/
def execStrobeEdge (dir : EdgeDir) (s : State) : Result :=
  .next (
    let t := addTicks s.count (-(s.strobe.latency.toNat : Int))
    if s.running && s.strobe.polarity.chooses dir && s.strobe.spaced s.count && s.strobe.ordered t then
      let s1 := s.appendCapture t .edge
      { s1 with strobe := { s1.strobe with lastEdge := some s.count } }
    else s)

/-- The last accepted edge has reached 2^46 ticks of age (R8). -/
def State.lastEdgeAged (s : State) : Bool :=
  s.running && (match s.strobe.lastEdge with
    | none => false
    | some e => decide (Config.ageLimit ≤ sdiff s.count e))

/-- LAST_ACCEPTED_EDGE_EXPIRY (R8). -/
def execLastAcceptedEdgeExpiry (s : State) : Result :=
  .next (if s.lastEdgeAged then { s with strobe := { s.strobe with lastEdge := none } } else s)

/-- The oldest capture has reached 2^46 ticks of age (R11). -/
def State.oldestCaptureAged (s : State) : Bool :=
  s.running && (match s.strobe.queue with
    | [] => false
    | e :: _ => decide (Config.ageLimit ≤ sdiff s.count e.time))

/-- CAPTURE_ENTRY_EXPIRY (R11): the aged entry leaves the oldest end, moving no counter and setting no flag. -/
def execCaptureEntryExpiry (s : State) : Result :=
  .next (if s.oldestCaptureAged then { s with strobe := { s.strobe with queue := s.strobe.queue.tail } } else s)

/-- TSTROBE's fields: the three settings in force (R14). -/
def strobeFields (c : StrobeCapture) : List Byte := put8 c.polarity.code ++ put16 c.latency ++ put16 c.spacing

/-- TSTROBE's work (R14). -/
def strobeOwner (r : TstrobeReq) (s : State) : State × List Byte :=
  match readPolarity r.polarity with
  | none => (s, refuse .eRange)
  | some p =>
    let c := { s.strobe with polarity := p, latency := r.latency, spacing := r.spacing }
    ({ s with strobe := c }, accept (strobeFields c))

/-- TSTROBE (R14). -/
def execTstrobe (tag : Byte) (r : TstrobeReq) (s : State) : Result :=
  .next (s.serve (.tstrobe tag r) (strobeOwner r))

/-- A capture in an answer: sequence, local time, origin. -/
def Capture.fields (e : Capture) : List Byte := put8 e.seq ++ put48 e.time ++ put8 e.origin.code

/-- TCAPS's work (R15): up to n entries leave from the oldest end and are returned, oldest first. -/
def capsOwner (n : Byte) (s : State) : State × List Byte :=
  if Config.captureDepth < n.toNat then (s, refuse .eRange)
  else
    let returned := s.strobe.queue.take n.toNat
    let c := { s.strobe with queue := s.strobe.queue.drop n.toNat }
    ({ s with strobe := c },
      accept (nat8 returned.length ++ nat8 c.queue.length ++ put8 c.nextSeq ++ nat16 c.lost
        ++ (returned.map Capture.fields).flatten))

/-- TCAPS (R15). -/
def execTcaps (tag : Byte) (n : Byte) (s : State) : Result :=
  .next (s.serve (.tcaps tag n) (capsOwner n))

/-- TINJ's work (R16): a capture at the present count, subject to the order test alone. -/
def injectOwner (s : State) : State × List Byte :=
  if s.strobe.ordered s.count then
    (s.appendCapture s.count .injected, accept (put8 s.strobe.nextSeq ++ put48 s.count))
  else (s, refuse .eStale)

/-- TINJ (R16). -/
def execTinj (tag : Byte) (s : State) : Result := .next (s.serve (.tinj tag) injectOwner)

/-- The entry with a sequence number and the newer entries behind it, which stay queued (R12). -/
def takeCapture (seq : Byte) : List Capture → Option (Capture × List Capture)
  | [] => none
  | e :: rest => if e.seq = seq then some (e, rest) else takeCapture seq rest

/-- Strobe capture after a warm reset (R17). -/
def StrobeCapture.warm (c : StrobeCapture) : StrobeCapture :=
  { c with lastEdge := none, queue := [], nextSeq := 0, lost := 0 }

end Sys2Proof.Machine
end

