-- ==== Sys2Proof/Machine/HouseClock.lean ====
section
/-! DEFINITION. The house clock tracker: re-anchoring and expiries (R19, R35, R36), timing pairs (R21 to R34), roles (R38 to R40),
settings (R41) and TNOW (R42). -/

namespace Sys2Proof.Machine

/-! ## Events of the tracker's own timers -/

/-- The anchors have reached 2^46 ticks of age (R19). -/
def State.anchorAged (s : State) : Bool :=
  s.running && s.tracker.state != .unlocked && decide (Config.ageLimit ≤ sdiff s.count s.tracker.l0)

/-- RE_ANCHOR (R19): H0 takes H() at the present tick, and L0 takes that tick. -/
def execReAnchor (s : State) : Result :=
  .next (if s.anchorAged then
    { s with tracker := { s.tracker with h0 := s.tracker.estimate s.count, l0 := s.count } } else s)

/-- Ticks since the last accept. -/
def State.sinceAccept (s : State) : Int := sdiff s.count s.tracker.lastAccept

/-- The holdover expiry is due (R35). -/
def State.holdoverDue (s : State) : Bool :=
  s.running && s.tracker.state == .locked && decide ((s.tracker.settings.thold : Int) ≤ s.sinceAccept)

/-- HOLDOVER_EXPIRY (R35). -/
def execHoldoverExpiry (s : State) : Result :=
  .next (if s.holdoverDue then
    { s with tracker := { s.tracker with state := .holdover } }.raiseTracker .hold else s)

/-- The freerun expiry is due (R36). -/
def State.freerunDue (s : State) : Bool :=
  s.running && s.tracker.state == .holdover &&
    decide ((s.tracker.settings.thold + s.tracker.settings.tfree : Int) ≤ s.sinceAccept)

/-- FREERUN_EXPIRY (R36). -/
def execFreerunExpiry (s : State) : Result :=
  .next (if s.freerunDue then
    { s with tracker := { s.tracker with state := .freerun } }.raiseTracker .free else s)

/-! ## The servo (R30 to R33) -/

/-- Limit the rate correction (R20). -/
def clampRate (q : Int) : Int := clampInt (-Config.rateLimit) Config.rateLimit q

/-- The rate correction Δq of a pair with distance d, error e and gain exponent K (R30). -/
def rateStep (d e : Int) (k : Nat) : Int :=
  if d < 245760 then 0 else roundDiv (e * 2 ^ 32) (d * 2 ^ k)

/-- The locked offset correction (R30). -/
def offsetStep (e : Int) (kp : Nat) : Int := roundDiv e (2 ^ kp)

/-- The outcome of a pair: the tracker after it, the flags it sets, the outcome and error it reports. -/
structure PairResult where
  tracker : Tracker
  flags : List TrackerFlag
  outcome : PairOutcome
  error : Option Int
  deriving DecidableEq, Repr

/-- A step (R29): the anchors are set to the pair. -/
def Tracker.stepTo (t : Tracker) (l h : Time) : Tracker :=
  { t with state := .acquiring, h0 := h, l0 := l, acquireCount := 1, outlierRun := 0, lastAccept := l }

/-- The result of a step, with the flags besides STEP that its case sets (R25, R29). -/
def Tracker.stepResult (t : Tracker) (l h : Time) (flags : List TrackerFlag) : PairResult :=
  { tracker := t.stepTo l h, flags := .step :: flags, outcome := .stepped, error := none }

/-- A pair in ACQUIRING with acquire count 1 or more, d > 0 (R31). -/
def Tracker.acquire (t : Tracker) (l h : Time) (d : Int) : PairResult :=
  let e := sdiff h (t.estimate l)
  if e.natAbs ≤ t.settings.wacq then
    let count := t.acquireCount + 1
    let t1 := { t with q := clampRate (t.q + rateStep d e t.settings.kia), h0 := h, l0 := l, lastAccept := l,
                       acquireCount := count }
    if t.settings.nacq ≤ count then
      { tracker := { t1 with state := .locked, outlierRun := 0 }, flags := [.locked], outcome := .locked, error := some e }
    else { tracker := t1, flags := [], outcome := .acquired, error := some e }
  else t.stepResult l h []

/-- A pair in LOCKED or HOLDOVER, d > 0 (R32, R33). -/
def Tracker.track (t : Tracker) (l h : Time) (d : Int) : PairResult :=
  let hp := t.estimate l
  let e := sdiff h hp
  if e.natAbs ≤ t.settings.w then
    { tracker := { t with q := clampRate (t.q + rateStep d e t.settings.ki), h0 := addTicks hp (offsetStep e t.settings.kp),
                          l0 := l, outlierRun := 0, lastAccept := l, accepted := satInc t.accepted, state := .locked },
      flags := if t.state = .holdover then [.locked] else [], outcome := .tracked, error := some e }
  else
    let t1 := { t with outliers := satInc t.outliers, outlierRun := t.outlierRun + 1 }
    if t.settings.nout ≤ t1.outlierRun then
      { tracker := { t1 with state := .acquiring, acquireCount := 0, outlierRun := 0 }, flags := [.unlock],
        outcome := .outlier, error := some e }
    else { tracker := t1, flags := [], outcome := .outlier, error := some e }

/-- The staleness test and the state action (R28, R29, R31 to R33): none when the pair is stale. -/
def Tracker.takePair (t : Tracker) (l h : Time) : Option PairResult :=
  let d := sdiff l t.l0
  match t.state with
  | .unlocked => some (t.stepResult l h [])
  | .freerun => some (t.stepResult l h [.unlock])
  | .acquiring =>
    if t.acquireCount = 0 then some (t.stepResult l h [])
    else if d ≤ 0 then none
    else some (t.acquire l h d)
  | .locked => if d ≤ 0 then none else some (t.track l h d)
  | .holdover => if d ≤ 0 then none else some (t.track l h d)
  | .ref => none

/-- The UNLOCK flag of a commit out of LOCKED, HOLDOVER or FREERUN (R25). -/
def TrackerState.commitFlags : TrackerState → List TrackerFlag
  | .locked => [.unlock]
  | .holdover => [.unlock]
  | .freerun => [.unlock]
  | .unlocked => []
  | .acquiring => []
  | .ref => []

/-- What the epoch step makes of a pair (R23 to R26). -/
inductive EpochStep where
  /-- Go on with this tracker; a purge is requested, and EPOCH set, as said. -/
  | goOn (t : Tracker) (purge : Bool) (changed : Bool)
  /-- The candidate commits: the pair is a step (R25). -/
  | commit (t : Tracker)
  /-- The pair's epoch is held as the candidate (R26); the change asks for a purge (R27). -/
  | pending (t : Tracker)
  deriving DecidableEq, Repr

/-- The epoch step (R23 to R26). -/
def Tracker.epochStep (t : Tracker) (epoch : Byte) : EpochStep :=
  if t.state = .unlocked then
    if epoch = t.epoch then .goOn t false false else .goOn { t with epoch := epoch } true true
  else if epoch = t.epoch then
    .goOn { t with candidate := none } t.candidate.isSome false
  else
    match t.candidate with
    | none => .pending { t with candidate := some epoch }
    | some c =>
      if c = epoch then .commit { t with epoch := epoch, candidate := none }
      else .pending { t with candidate := some epoch }

/-- TSYNC's fields (R34). -/
def pairFields (t : Tracker) (o : PairOutcome) (e : Option Int) : List Byte :=
  put8 o.code ++ put8 t.state.code ++ put8 t.epoch ++ int32 t.q ++ optField 6 int48 e

/-- Replace the tracker record. -/
def State.setTracker (s : State) (t : Tracker) : State := { s with tracker := t }

/-- Purge where the tracker asks for it (R27). -/
def State.purgeIf (s : State) (p : Bool) : State := if p then s.purge else s

/-- Set several flags of the tracker group. -/
def State.raiseAll (s : State) (fs : List TrackerFlag) : State := fs.foldl State.raiseTracker s

/-- The state after a pair, and its answer (R34). -/
def State.afterPair (s : State) (r : PairResult) : State × List Byte :=
  ((s.setTracker r.tracker).raiseAll r.flags, accept (pairFields r.tracker r.outcome r.error))

/-- TSYNC's work from the epoch step on, with the capture's local time (R23 to R34). -/
def State.pair (s : State) (l : Time) (epoch : Byte) (h : Time) : State × List Byte :=
  match s.tracker.epochStep epoch with
  | .pending t => ((s.setTracker t).purge, accept (pairFields t .pending none))
  | .commit t =>
    let s1 := ((s.setTracker t).raiseTracker .epoch).purge
    s1.afterPair (t.stepResult l h s.tracker.state.commitFlags)
  | .goOn t p changed =>
    let s1 := ((s.setTracker t).raiseAll (if changed then [.epoch] else [])).purgeIf p
    match t.takePair l h with
    | none => (s1.setTracker { t with stale := satInc t.stale }, refuse .eStale)
    | some r => s1.afterPair r

/-- TSYNC's work (R21 to R34). -/
def syncOwner (r : TsyncReq) (s : State) : State × List Byte :=
  if s.tracker.role = .reference then (s, refuse .eRole)
  else
    match takeCapture r.seq s.strobe.queue with
    | none => (s, refuse .eNocap)
    | some (e, rest) =>
      State.pair { s with strobe := { s.strobe with queue := rest } } e.time r.epoch r.house

/-- TSYNC (R21). -/
def execTsync (tag : Byte) (r : TsyncReq) (s : State) : Result := .next (s.serve (.tsync tag r) (syncOwner r))

/-! ## Roles (R38 to R40) -/

/-- The tracker after TROLE to a role with an epoch, taken at `now` (R38 to R40). -/
def Tracker.toRole (t : Tracker) (role : Role) (epoch : Byte) (now : Time) : Tracker :=
  match t.role, role with
  | .follower, .reference =>
    { t with h0 := (t.house? now).getD now, l0 := now, q := 0, acquireCount := 0, outlierRun := 0, state := .ref,
             role := .reference, candidate := none, epoch := epoch }
  | .reference, .follower => { t with role := .follower, state := .unlocked, candidate := none, epoch := epoch }
  | .follower, .follower => { t with epoch := epoch, candidate := none }
  | .reference, .reference => { t with epoch := epoch, candidate := none }

/-- TROLE's work (R38 to R40). -/
def roleOwner (r : TroleReq) (s : State) : State × List Byte :=
  match readRole r.role with
  | none => (s, refuse .eRange)
  | some role =>
    let t := s.tracker.toRole role r.epoch s.count
    let changed := t.epoch != s.tracker.epoch
    let s1 := (s.setTracker t).raiseAll (if changed then [.epoch] else [])
    (s1.purgeIf (changed || t.candidate != s.tracker.candidate),
      accept (put8 t.role.code ++ put8 t.state.code ++ put8 t.epoch))

/-- TROLE (R38). -/
def execTrole (tag : Byte) (r : TroleReq) (s : State) : Result := .next (s.serve (.trole tag r) (roleOwner r))

/-! ## Settings and reading (R41, R42) -/

/-- The carried settings as numbers. -/
def carriedSettings (r : TsetReq) : TrackerSettings :=
  { kp := r.kp.toNat, ki := r.ki.toNat, kia := r.kia.toNat, w := r.w.toNat, wacq := r.wacq.toNat, nout := r.nout.toNat,
    nacq := r.nacq.toNat, thold := r.thold.toNat, tfree := r.tfree.toNat }

/-- Every setting in its range; Wacq after W (R41). -/
def TrackerSettings.clamp (c : TrackerSettings) : TrackerSettings :=
  let w := clampNat 25 1048575 c.w
  { kp := min c.kp 7, ki := min c.ki 7, kia := min c.kia 7, w := w, wacq := max w (min c.wacq 8388607),
    nout := clampNat 1 15 c.nout, nacq := clampNat 2 32 c.nacq, thold := clampNat 2457600 245760000 c.thold,
    tfree := clampNat 24576000 14745600000 c.tfree }

/-- TSET's fields: the nine values applied (R41). -/
def settingsFields (c : TrackerSettings) : List Byte :=
  nat8 c.kp ++ nat8 c.ki ++ nat8 c.kia ++ nat32 c.w ++ nat32 c.wacq ++ nat8 c.nout ++ nat8 c.nacq ++ nat32 c.thold
    ++ nat48 c.tfree

/-- TSET's work (R41). -/
def setOwner (r : TsetReq) (s : State) : State × List Byte :=
  let applied := (carriedSettings r).clamp
  (s.setTracker { s.tracker with settings := applied },
    acceptOr (applied != carriedSettings r) (settingsFields applied))

/-- TSET (R41). -/
def execTset (tag : Byte) (r : TsetReq) (s : State) : Result := .next (s.serve (.tset tag r) (setOwner r))

/-- TNOW's fields (R42). -/
def nowFields (s : State) : List Byte :=
  put48 s.count ++ optField 6 put48 (s.tracker.house? s.count) ++ put8 s.tracker.state.code ++ put8 s.tracker.epoch
    ++ optField 1 put8 s.tracker.candidate ++ int32 s.tracker.q ++ nat16 s.tracker.accepted ++ nat16 s.tracker.outliers
    ++ nat16 s.tracker.stale

/-- TNOW (R42). -/
def execTnow (tag : Byte) (s : State) : Result := .next (s.serve (.tnow tag) (fun s => (s, accept (nowFields s))))

end Sys2Proof.Machine
end

