-- ==== Sys2Proof/Machine/Reset.lean ====
section
/-! DEFINITION. Cold reset (R199) and warm reset (R198, with R17, R44, R61, R81, R82, R142, R155, R156, R179, R180). -/

namespace Sys2Proof.Machine

/-- COLD_RESET (R199): every piece of state at its cold value, the count held at 0. The queue of waiting commands and the count of
free readings, which are the model's own, stay (log 7, log 8). -/
def execColdReset (s : State) : Result :=
  .next { State.reset with pending := s.pending, samples := s.samples }

/-- The link through steps 1 and 3 of a warm reset (R198): every answer is discarded, the transaction in progress keeps its bytes but
its head answer is no longer in the queue, every flag is clear, the enables stay. -/
def Link.warm (l : Link) : Link :=
  { l with
    outbound := []
    transaction := l.transaction.map (fun t => { t with headLive := false })
    trackerFlags := 0
    portFlags := 0
    cueFlags := 0 }

/-- SPC through a warm reset (R155): no sample in assembly, the clock watch IDLE, the configuration kept. -/
def InPortState.warm (p : InPortState) : InPortState := { p with assembly := none, watch := .idle }

/-- The tracker through a warm reset (R44): the whole record stays but the candidate. -/
def Tracker.warm (t : Tracker) : Tracker := { t with candidate := none }

/-- The blocks through a warm reset (R198, step 4). The local count, the store, the output ports and the general lines stay. -/
def State.warm (s : State) : State :=
  { s with
    strobe := s.strobe.warm
    tracker := s.tracker.warm
    lanes := LaneMap.all Lane.reset
    mixer := Mixer.reset
    spc := s.spc.warm
    cues := ⟨Cue.reset, Cue.reset, Cue.reset, Cue.reset⟩
    link := s.link.warm }

/-- XRESET (R198): processed as the oldest request, whether or not the outbound queue is full; its answer becomes the head. While an
older request waits, it waits in its turn (R189). -/
def execXreset (tag : Byte) (s : State) : Result :=
  .next (
    if s.running then
      if s.link.inbound.isEmpty then s.warm.post .xreset tag (accept []) else s.stall (encodeRequest (.xreset tag))
    else s)

end Sys2Proof.Machine
end

