-- ==== Sys2Proof/Machine/Clock.lean ====
section
/-! DEFINITION. The part's own clock: what an idle step does. The sample periods of a boundary just taken join the queue first; then the
oldest request that the link can process is taken; otherwise a local tick passes, and the events that the count makes due join the queue
(R3, R143, R189; log 1, log 2). -/

namespace Sys2Proof.Machine

/-- A command when its condition holds. -/
def dueIf (c : Bool) (i : Instr) : List Instr := if c then [i] else []

/-- An output port is enabled for the sample period that begins at the present tick (R143). -/
def State.portOn (s : State) (p : OutPort) : Bool := (s.ports.get p).inForce.enable

/-- SPC drives its own clocks: it is enabled in MASTER mode (R143, R150). -/
def State.spcDrives (s : State) : Bool := s.spc.inForce.enable && s.spc.modeInForce == .master

/-- The present tick begins a sample period (R5). -/
def State.periodStart (s : State) : Bool := onGrid s.count Config.sampleTicks

/-- The present tick is the middle of a sample period, where word select moves to the right slot (R144, R150). -/
def State.periodMiddle (s : State) : Bool := s.count.toNat % Config.sampleTicks == 256

/-- The present tick is a rising edge of a bit clock that the part makes (R144). -/
def State.clockRise (s : State) : Bool := s.count.toNat % 8 == 4

/-- A rising edge of SPC's own bit clock is due at the present tick: SPC takes a bit there (R150, R151). -/
def State.spcBitDue (s : State) : Bool := s.clockRise && s.spcDrives

/-- The events of the start of a sample period at the present tick, by the configurations in force (R143, R146, R150). -/
def State.periodEvents (s : State) : List Instr :=
  dueIf (s.portOn .spa) (.samplePeriod .spa)
    ++ dueIf (s.portOn .spb) (.samplePeriod .spb)
    ++ dueIf s.spcDrives .spcSampleComplete

/-- The events that the count makes due at the present tick, in the model's order (log 2). The sample periods that begin with a
block boundary are not among them: the boundary decides which configurations govern those (R143). A HOLDOVER entered at this tick with
Thold + Tfree already past expires at the next tick (R36; log 35). -/
def State.dueEvents (s : State) : List Instr :=
  dueIf s.lastEdgeAged .lastAcceptedEdgeExpiry
    ++ dueIf s.oldestCaptureAged .captureEntryExpiry
    ++ dueIf s.anchorAged .reAnchor
    ++ dueIf s.holdoverDue .holdoverExpiry
    ++ dueIf s.freerunDue .freerunExpiry
    ++ dueIf s.boundaryDue .blockBoundary
    ++ (if s.periodStart && !s.boundaryDue then s.periodEvents else [])
    ++ dueIf (s.periodMiddle && s.spcDrives) .spcWordSelectEdge
    ++ dueIf s.spcBitDue (.spcBitTaken (Config.dataLevel s.samples))
    ++ dueIf (s.tailReached .spa) (.hangTailEnd .spa)
    ++ dueIf (s.tailReached .spb) (.hangTailEnd .spb)
    ++ dueIf s.clockLossDue .inputClockLoss

/-- The count advances by one tick: a block boundary, with the sample periods that begin with it, is due where it is a multiple of 32,768
(R3, R4), and SPC's lines have not changed
at the new tick yet. -/
def State.advanceCount (s : State) : State :=
  { s with
    count := s.count + 1
    boundaryDue := onGrid (s.count + 1) Config.blockTicks
    periodsDue := onGrid (s.count + 1) Config.blockTicks
    spc := { s.spc with selectTaken := false, clockTaken := false } }

/-- The readings of free values that the present tick takes: one where SPC takes a bit (log 7). -/
def State.readingsDue (s : State) : Nat := if s.spcBitDue then 1 else 0

/-- A local tick: the count advances and the due events join the queue. Before the count has started nothing happens (R3). -/
def State.tick (s : State) : State :=
  if s.running then
    { s.advanceCount with
      pending := s.pending ++ s.advanceCount.dueEvents
      samples := s.samples + s.advanceCount.readingsDue }
  else s

/-- Whether an idle step finds sample periods of the present tick's boundary that are not in the queue yet (R143; log 2). -/
def State.periodsWait (s : State) : Bool := s.running && s.periodsDue

/-- The sample periods that begin with the present tick's boundary join the queue, by the configurations that it brought into force
(R143). -/
def State.queuePeriods (s : State) : State := { s with periodsDue := false, pending := s.pending ++ s.periodEvents }

/-- A command is an XRESET. -/
def isXreset : Instr → Bool
  | .xreset _ => true
  | _ => false

/-- The processing of the oldest request in the inbound buffer, with the requests behind it: none while it waits (R189). -/
def State.linkNext? (s : State) : Option (Instr × List RawRequest) :=
  match s.link.inbound with
  | [] => none
  | raw :: rest =>
    if s.running && (s.canAnswer || isXreset (decodeRequest raw)) then some (decodeRequest raw, rest) else none

/-- The requests that stand in the inbound buffer (R189). -/
def State.withInbound (s : State) (rest : List RawRequest) : State := { s with link := { s.link with inbound := rest } }

/-- The outcome of processing the oldest request, with the requests that waited behind it still in the buffer (R189). -/
def withBehind (rest : List RawRequest) : Result → Result
  | .next t => .next (t.withInbound rest)
  | .fault f => .fault f
  | .refused r => .refused r

end Sys2Proof.Machine
end

