-- ==== Sys2Proof/Machine/Dispatch.lean ====
section
/-! DEFINITION. The meaning of each command, one arm per constructor. -/

namespace Sys2Proof.Machine

def exec (i : Instr) (s : State) : Host.Outcome State Fault Refusal :=
  match i with
  | .coldReset => Sys2Proof.Machine.execColdReset s
  | .countStart => Sys2Proof.Machine.execCountStart s
  | .blockBoundary => Sys2Proof.Machine.execBlockBoundary s
  | .strobeEdge dir => Sys2Proof.Machine.execStrobeEdge dir s
  | .lastAcceptedEdgeExpiry => Sys2Proof.Machine.execLastAcceptedEdgeExpiry s
  | .captureEntryExpiry => Sys2Proof.Machine.execCaptureEntryExpiry s
  | .reAnchor => Sys2Proof.Machine.execReAnchor s
  | .holdoverExpiry => Sys2Proof.Machine.execHoldoverExpiry s
  | .freerunExpiry => Sys2Proof.Machine.execFreerunExpiry s
  | .chipSelectFall => Sys2Proof.Machine.execChipSelectFall s
  | .chipSelectRise mosi crossed => Sys2Proof.Machine.execChipSelectRise mosi crossed s
  | .framingRefusal raw => Sys2Proof.Machine.execFramingRefusal raw s
  | .tnow tag => Sys2Proof.Machine.execTnow tag s
  | .tset tag req => Sys2Proof.Machine.execTset tag req s
  | .trole tag req => Sys2Proof.Machine.execTrole tag req s
  | .tsync tag req => Sys2Proof.Machine.execTsync tag req s
  | .tstrobe tag req => Sys2Proof.Machine.execTstrobe tag req s
  | .tcaps tag count => Sys2Proof.Machine.execTcaps tag count s
  | .tinj tag => Sys2Proof.Machine.execTinj tag s
  | .lcfg tag req => Sys2Proof.Machine.execLcfg tag req s
  | .lbind tag req => Sys2Proof.Machine.execLbind tag req s
  | .lframe tag req => Sys2Proof.Machine.execLframe tag req s
  | .lgo tag lane => Sys2Proof.Machine.execLgo tag lane s
  | .lhalt tag req => Sys2Proof.Machine.execLhalt tag req s
  | .lstat tag lane => Sys2Proof.Machine.execLstat tag lane s
  | .lfetch tag lane => Sys2Proof.Machine.execLfetch tag lane s
  | .mgain tag req => Sys2Proof.Machine.execMgain tag req s
  | .mduck tag req => Sys2Proof.Machine.execMduck tag req s
  | .pcfg tag req => Sys2Proof.Machine.execPcfg tag req s
  | .cset tag req => Sys2Proof.Machine.execCset tag req s
  | .crun tag req => Sys2Proof.Machine.execCrun tag req s
  | .gset tag req => Sys2Proof.Machine.execGset tag req s
  | .gread tag => Sys2Proof.Machine.execGread tag s
  | .eread tag => Sys2Proof.Machine.execEread tag s
  | .eclear tag mask => Sys2Proof.Machine.execEclear tag mask s
  | .emask tag enables => Sys2Proof.Machine.execEmask tag enables s
  | .xreset tag => Sys2Proof.Machine.execXreset tag s
  | .xident tag => Sys2Proof.Machine.execXident tag s
  | .hangTailEnd port => Sys2Proof.Machine.execHangTailEnd port s
  | .samplePeriod port => Sys2Proof.Machine.execSamplePeriod port s
  | .spcSampleComplete => Sys2Proof.Machine.execSpcSampleComplete s
  | .inputClockLoss => Sys2Proof.Machine.execInputClockLoss s
  | .spcWordSelectEdge => Sys2Proof.Machine.execSpcWordSelectEdge s
  | .spcBitTaken bit => Sys2Proof.Machine.execSpcBitTaken bit s

end Sys2Proof.Machine
end

