-- ==== Sys2Proof/Machine/Step.lean ====
section
/-! DEFINITION. The step: the command at the front of the queue; on an empty queue the sample periods of a boundary
just taken, else the link's oldest request that can be processed, else a local tick (log 1, log 2). -/

namespace Sys2Proof.Machine

/-- One step of the part. -/
def step (s : State) : Host.Outcome State Fault Refusal :=
  match s.pending with
  | c :: rest => exec c { s with pending := rest }
  | [] =>
    if s.periodsWait then .next s.queuePeriods
    else
      match s.linkNext? with
      | some (c, rest) => withBehind rest (exec c (s.withInbound []))
      | none => .next s.tick

/-- The state with the command a table word spells put at the front of the queue; unchanged where the word spells none. -/
def State.withFetchWord (s : State) (nbits w : Nat) : State :=
  match Sys2Proof.decodeTableWord nbits w with
  | none => s
  | some c => { s with pending := c :: s.pending }

end Sys2Proof.Machine
end

