-- ==== Sys2Proof/Safety.lean ====
section
/-! DEFINITION. What a sound state of the part is, law by law, each from the rule of spec/ that states it; and the condition under
which a request is processed. Claims are made in these terms. -/

namespace Sys2Proof.Machine

/-- A request is processed: the count has started, the outbound queue has a place, and no older request waits (R188, R189). -/
def State.Ready (s : State) : Prop := s.running = true ∧ s.link.outbound.length < 8 ∧ s.link.inbound = []

/-- Every listed word stands in the store and holds a 24-bit sample (R53). -/
def Memory.InStore (m : Memory) : Prop :=
  ∀ e ∈ m, e.1 < 262144 ∧ -8388608 ≤ e.2.toInt ∧ e.2.toInt ≤ 8388607

/-- The sample store is in its canonical form, and every word of it is a 24-bit sample, sign-extended (R53). -/
def State.StoreLaw (s : State) : Prop := s.store.wf = true ∧ s.store.InStore

/-- The local times of captures strictly increase from oldest to newest, by signed difference (R1, R9). -/
def risingTimes : List Capture → Prop
  | [] => True
  | [_] => True
  | a :: b :: rest => 0 < (b.time - a.time).toInt ∧ risingTimes (b :: rest)

/-- The law of the capture queue (R9): at most 16 entries, each later than the entry before it. -/
def State.CaptureLaw (s : State) : Prop := s.strobe.queue.length ≤ 16 ∧ risingTimes s.strobe.queue

/-- The rate correction is within its limit (R20). -/
def State.RateLaw (s : State) : Prop := -858993 ≤ s.tracker.q ∧ s.tracker.q ≤ 858993

/-- At most 2 requests and at most 8 answers are held (R184), and the request of a transaction whose verdict is OPEN finds a slot free
(R187). -/
def State.LinkLaw (s : State) : Prop :=
  s.link.inbound.length ≤ 2 ∧ s.link.outbound.length ≤ 8 ∧
    ∀ t, s.link.transaction = some t → t.full = false → s.link.inbound.length ≤ 1

/-- The positions that hold no flag read 0, and no enable stands there (R195, R196, event flag layout). -/
def State.FlagLaw (s : State) : Prop :=
  s.link.portFlags &&& 0x1F = 0 ∧ s.link.enables &&& ~~~ flagPositions = 0

/-- The ring of a lane: fill never exceeds the region size, the reclaim offset lies in the region, every allocation begins where those
before it end, the write offset is where the newest one ends, and the oldest one is not released (R54 to R56); an OFF lane's ring is
empty (R52). -/
def Lane.RingLaw (l : Lane) : Prop :=
  l.fill ≤ l.config.regionSize ∧ l.reclaimOffset < l.config.regionSize ∧
    l.writeOffset = (l.reclaimOffset + l.fill) % l.config.regionSize ∧
    (∀ older a newer, l.allocs = older ++ a :: newer →
      a.start = (l.reclaimOffset + (older.map Alloc.len).sum) % l.config.regionSize) ∧
    (∀ a, l.allocs.head? = some a → a.released = false) ∧ (l.state = .off → l.allocs = [] ∧ l.reclaimOffset = 0)

/-- The ring law of every lane. -/
def State.RingLaw (s : State) : Prop := ∀ i, (s.lanes.get i).RingLaw

/-- A lane's state belongs to its direction's state machine (R46). -/
def Lane.StateLaw (l : Lane) : Prop :=
  match l.config.direction with
  | .play => l.state ≠ .running
  | .capture => l.state = .off ∨ l.state = .stopped ∨ l.state = .running

/-- The state law of every lane. -/
def State.StateLaw (s : State) : Prop := ∀ i, (s.lanes.get i).StateLaw

/-- A lane's use of the frame pool (R70, R45, R156): a quota of 1 to 128, no more records held than it, none in OFF, and no frame
being filled on a PLAY lane. -/
def Lane.PoolLaw (l : Lane) : Prop :=
  1 ≤ l.config.quota ∧ l.config.quota ≤ 128 ∧ l.held ≤ l.config.quota ∧ (l.state = .off → l.held = 0) ∧
    (l.config.direction = .play → l.filling = none)

/-- The quotas of the enabled lanes, summed (R70). -/
def State.quotaSum (s : State) : Nat :=
  ((LaneId.list.filter (fun i => (s.lanes.get i).enabled)).map (fun i => (s.lanes.get i).config.quota)).sum

/-- The frame record pool (R70): every lane keeps its law, and the quotas of enabled lanes sum to at most 128. -/
def State.PoolLaw (s : State) : Prop := (∀ i, (s.lanes.get i).PoolLaw) ∧ s.quotaSum ≤ 128

/-- A step keeps a law: from every state that meets it, a step that answers a next state answers one that meets it. -/
def KeptByStep (law : State → Prop) : Prop :=
  ∀ s t, law s → step s = .next t → law t

end Sys2Proof.Machine
end

