-- ==== Sys2Proof/Certificates/Slice0/Obligations.lean ====
section
/-! DEFINITION. The statements for the provers, from the numbered rules of spec/. Every equation `exec c s = .next { s with … }` states
a command's whole effect: what the record update does not name is unchanged. -/

section Slice0

open Sys2Proof Sys2Proof.Machine

/-! ## The machine -/

/-- The command at the front of the queue is the one a step runs, on the part with the queue's rest (the host's interface; log 1). -/
def Obligations.StepRunsFrontCommand : Prop :=
  ∀ (c : Instr) (rest : List Instr) (s : State),
    s.pending = c :: rest → step s = exec c { s with pending := rest }

/-- R189: with no command waiting, the oldest request in the inbound buffer is processed while the outbound queue holds fewer than 8
answers, and an XRESET even when it holds 8. It leaves its slot and the requests behind it stay: the next state is the one its command
gives with nothing else waiting, with those requests still in the buffer. A request that comes as a command while an older one waits, or
while the outbound queue holds 8 answers, is not processed, an XRESET behind an older one included: it joins the newest end of the
buffer where a slot is free beside the one that a transaction in progress with the verdict OPEN is promised (R187), and is discarded
where none is (log 4), as is one that fails framing. That the queue of commands comes first, and after it the sample periods of a
boundary, is the model's choice (log 1, log 2). -/
def Obligations.IdleStepServesOldestRequest : Prop :=
  (∀ (raw : RawRequest) (rest : List RawRequest) (s : State),
    s.pending = [] → s.running = true → s.periodsDue = false → s.link.inbound = raw :: rest →
    (s.link.outbound.length < 8 ∨ ∃ tag, decodeRequest raw = .xreset tag) →
    ∃ t, exec (decodeRequest raw) { s with link := { s.link with inbound := [] } } = .next t ∧
      step s = .next { t with link := { t.link with inbound := rest } }) ∧
  (∀ (c : Instr) (raw : RawRequest) (s : State),
    (((∃ ty tag p, c.request? = some (ty, tag, p)) ∧ raw = encodeRequest c) ∨
      (c = .framingRefusal raw ∧ framingAnswer raw ≠ none)) →
    s.running = true → (s.link.inbound ≠ [] ∨ (8 ≤ s.link.outbound.length ∧ ∀ tag, c ≠ .xreset tag)) →
    exec c s = .next (
      if s.link.inbound.length + (match s.link.transaction with
        | none => 0
        | some t => if t.full then 0 else 1) < 2 then { s with link := { s.link with inbound := s.link.inbound ++ [raw] } }
      else s))

/-- R3, R4, R189: when nothing waits that can be served, a local tick passes. The count advances by 1 modulo 2^48, and exactly the events
that the count makes due join the queue, each once: the aged edge, capture and anchors (R8, R11, R19), the tracker's expiries (R35, R36),
a block boundary at a multiple of 32,768, the sample periods of the enabled output ports (R146), the edges and the bit of an SPC that
drives its own clocks, with a free level on its data line (R150, R151; log 7), the hang tail ends (R149) and the loss of SPC's clock
(R153). FREERUN is due only where the tracker was in HOLDOVER before the tick, the model's choice (log 35). The sample periods that
begin with a block boundary, with SPC's opening edge, join the queue by an idle step after it, by the configurations that it brought
into force (R143); that the boundary that enables SPC in MASTER mode has an opening edge is the model's reading (log 22). Nothing else
changes but the model's own marks. That waiting requests are served before a tick is the model's choice (log 1), and so is the order of
the due events (log 2). -/
def Obligations.IdleStepTakesATick : Prop :=
  (∀ (s : State) (n : Time) (boundary : Bool),
    n = s.count + 1 → boundary = decide (n.toNat % 32768 = 0) →
    s.pending = [] → s.running = true → s.periodsDue = false →
    (∀ raw rest, s.link.inbound = raw :: rest →
      8 ≤ s.link.outbound.length ∧ ∀ tag, decodeRequest raw ≠ .xreset tag) →
    ∃ t, step s = .next t ∧
      t = { s with
        count := n
        boundaryDue := boundary
        periodsDue := boundary
        samples := s.samples + (if n.toNat % 8 = 4 ∧ s.spc.inForce.enable = true ∧ s.spc.modeInForce = .master then 1 else 0)
        spc := { s.spc with selectTaken := false, clockTaken := false }
        pending := t.pending } ∧
      t.pending.Nodup ∧
      ∀ c : Instr, c ∈ t.pending ↔
        (c = .lastAcceptedEdgeExpiry ∧ ∃ e, s.strobe.lastEdge = some e ∧ 2 ^ 46 ≤ (n - e).toInt) ∨
        (c = .captureEntryExpiry ∧ ∃ e rest, s.strobe.queue = e :: rest ∧ 2 ^ 46 ≤ (n - e.time).toInt) ∨
        (c = .reAnchor ∧ s.tracker.state ≠ .unlocked ∧ 2 ^ 46 ≤ (n - s.tracker.l0).toInt) ∨
        (c = .holdoverExpiry ∧ s.tracker.state = .locked ∧
          (s.tracker.settings.thold : Int) ≤ (n - s.tracker.lastAccept).toInt) ∨
        (c = .freerunExpiry ∧ s.tracker.state = .holdover ∧
          (s.tracker.settings.thold + s.tracker.settings.tfree : Int) ≤ (n - s.tracker.lastAccept).toInt) ∨
        (c = .blockBoundary ∧ n.toNat % 32768 = 0) ∨
        (∃ p, c = .samplePeriod p ∧ n.toNat % 512 = 0 ∧ n.toNat % 32768 ≠ 0 ∧ (s.ports.get p).inForce.enable = true) ∨
        (c = .spcSampleComplete ∧ n.toNat % 512 = 0 ∧ n.toNat % 32768 ≠ 0 ∧ s.spc.inForce.enable = true ∧
          s.spc.modeInForce = .master) ∨
        (c = .spcWordSelectEdge ∧ n.toNat % 512 = 256 ∧ s.spc.inForce.enable = true ∧ s.spc.modeInForce = .master) ∨
        (c = .spcBitTaken (Config.dataLevel s.samples) ∧ n.toNat % 8 = 4 ∧ s.spc.inForce.enable = true ∧
          s.spc.modeInForce = .master) ∨
        (∃ p e, c = .hangTailEnd p ∧ (s.ports.get p).tailEnd = some e ∧ 0 ≤ (n - e).toInt) ∨
        (c = .inputClockLoss ∧ ∃ w, s.spc.watch = .watching w ∧ 65536 ≤ (n - w).toInt)) ∧
  (∀ s : State, s.pending = [] → s.running = true → s.periodsDue = true →
    ∃ t, step s = .next t ∧ t = { s with periodsDue := false, pending := t.pending } ∧ t.pending.Nodup ∧
      ∀ c : Instr, c ∈ t.pending ↔
        (∃ p, c = .samplePeriod p ∧ (s.ports.get p).inForce.enable = true) ∨
        (c = .spcSampleComplete ∧ s.spc.inForce.enable = true ∧ s.spc.modeInForce = .master))

/-- R3, R188: while the count is held, the link serves nothing and no block acts. That a command other than the cold reset and the start
of the count then does nothing at all, though R3 and R188 name no commands, is the model's choice (log 8). The transaction in progress
is absent then. -/
def Obligations.HeldUntilCountStarts : Prop :=
  ∀ (c : Instr) (s : State),
    s.running = false → s.link.transaction = none → c ≠ .coldReset → c ≠ .countStart → exec c s = .next s

/-! ## Resets and the start of the count -/

/-- R199: a cold reset gives every block its cold values, each written out here: the count held at 0 (R3), strobe capture (R6, R8, R10),
the tracker record with its default settings (R18, R41), the store 0 (R53), every lane OFF and empty with the default configuration
(R45, R61, R82, R108, R156), the mixer (R128), the ports (R143), the cues (R168), the lines (R180) and the link (R184). So every flag is
clear, every enable off but BOOT's, and ATTN low. The queue of waiting commands and the count of free readings, which are the model's
own, stay (log 8); its other marks are cleared. -/
def Obligations.ColdResetGivesColdValues : Prop :=
  ∀ (s : State) (port : PortFormat) (channel : Channel) (out : OutPortState) (lane : Lane) (cue : Cue) (line : Line),
    port = { enable := false, width := .w24, polarity := .leftLow, alignment := .delayed } →
    channel = { map := .stereo, current := 0, start := 0, target := 0, n := 1, b := 1 } →
    out = { format := port, latency := 0, inForce := port, emission := [], staging := (0, 0), hang := 0, tailEnd := none } →
    lane =
      { config :=
          { direction := .play, firstPage := 0, lastPage := 0, quota := 1, channels := 2, policy := .strict,
            leadLimit := 49152000, low := 4800, high := 19200, roomOffset := 0, gs := 10, trimMax := 8389, slipLimit := 24576,
            frameSize := 256, dataMark := 4, inputLatency := 0 }
        state := .off, writeOffset := 0, reclaimOffset := 0, allocs := [], current := none, switch := none, queue := [],
        cursor := none, aim := .absent, halt := none, actions := [], lastTag := none,
        counters :=
          { starts := 0, lateDrops := 0, gaps := 0, overlaps := 0, starvations := 0, holds := 0, slips := 0, slipDrops := 0,
            purges := 0 }
        lastError := none, lastStep := none, slipMark := none, runNumber := 0, lastSeq := 0, entryTime := none,
        filling := none, discPending := false, captureCounters := { closed := 0, overruns := 0, discards := 0 }, flags := 0 } →
    cue =
      { mode := .at, target := 0, interval := 0, reload := 0, gate := none, action := .none, report := .onExpiry,
        line := .pulse, state := .stopped, count := 0, level := false, expiries := 0, skipped := 0, lastExpiry := none,
        outcome := .none, reportDue := none } →
    line = { function := .input, stored := false } →
    ∃ t, exec .coldReset s = .next t ∧
      t =
        { pending := s.pending, running := false, count := 0, boundaryDue := false, periodsDue := false, samples := s.samples
          strobe := { polarity := .rising, latency := 0, spacing := 2458, lastEdge := none, queue := [], nextSeq := 0, lost := 0 }
          tracker :=
            { role := .follower, state := .unlocked, epoch := 0, candidate := none, l0 := 0, h0 := 0, q := 0,
              acquireCount := 0, outlierRun := 0, lastAccept := 0, accepted := 0, outliers := 0, stale := 0,
              settings :=
                { kp := 2, ki := 4, kia := 1, w := 2458, wacq := 24576, nout := 4, nacq := 8, thold := 12288000,
                  tfree := 1474560000 } }
          store := []
          lanes := ⟨lane, lane, lane, lane, lane, lane⟩
          mixer :=
            { channels := ⟨⟨channel, channel⟩, ⟨channel, channel⟩, ⟨channel, channel⟩, ⟨channel, channel⟩, ⟨channel, channel⟩,
                ⟨channel, channel⟩⟩
              duckClass := ⟨0, 0, 0, 0, 0, 0⟩, duckLevel := ⟨32768, 32768, 32768, 32768, 32768, 32768⟩
              d1 := 16384, d2 := 8192, d3 := 4096, attack := 4, release := 96, master := ⟨32768, 32768⟩, clips := ⟨0, 0⟩,
              actions := [] }
          ports := ⟨out, out⟩
          spc := { format := port, mode := .master, inForce := port, modeInForce := .master, assembly := none, watch := .idle,
                   selectLevel := none, selectTaken := false, clockTaken := false }
          cues := ⟨cue, cue, cue, cue⟩
          lines := ⟨line, line, line, line, line, line⟩
          link :=
            { inbound := [], outbound := [], transaction := none, trackerFlags := 0, portFlags := 0, cueFlags := 0,
              enables := 0x010000000000000000 } } ∧
      (∀ a, t.store.read a = 0) ∧ (∀ i, (t.lanes.get i).fill = 0 ∧ (t.lanes.get i).buffered = 0) ∧
      (∀ p, (t.ports.get p).active = false) ∧ t.flagWord = 0 ∧ (∀ f, t.flagEnabled f = true ↔ f = .tracker .boot) ∧
      t.attn = false

/-- R3, R4, R199: the tick at which the count starts is local count 0. BOOT is set, ATTN is high when BOOT's enable is on, and boundary 0
occurs: from the started count with BOOT set, the next state is the one that a block boundary at count 0 leaves. So every port's stored
configuration is in force, an enabled output port keeps the block of boundary 0 and a disabled one is empty. The tracker, the captures,
the store, the general lines and the link's queues are as they were. -/
def Obligations.CountStartSetsBoot : Prop :=
  ∀ (s : State), s.running = false →
    ∃ t, exec .countStart s = .next t ∧
      exec .blockBoundary { s with
        running := true, count := 0, boundaryDue := true,
        link := { s.link with trackerFlags := s.link.trackerFlags ||| 0x01 } } = .next t ∧
      t.running = true ∧ t.count = 0 ∧ t.boundaryDue = false ∧
      (∀ p, (t.ports.get p).inForce = (s.ports.get p).format ∧
        ((s.ports.get p).format.enable = true →
          ∃ pairs, (t.ports.get p).emission = (s.ports.get p).emission ++ [{ base := 0, pairs := pairs }] ∧ pairs.length = 64) ∧
        ((s.ports.get p).format.enable = false → (t.ports.get p).emission = [] ∧ (t.ports.get p).hang = 0)) ∧
      t.spc.inForce = s.spc.format ∧ t.spc.modeInForce = s.spc.mode ∧
      t.flag (.tracker .boot) = true ∧ (s.flagEnabled (.tracker .boot) = true → t.attn = true) ∧
      t.tracker = s.tracker ∧ t.strobe = s.strobe ∧ t.store = s.store ∧ t.lines = s.lines ∧ t.pending = s.pending ∧
      t.link.inbound = s.link.inbound ∧ t.link.outbound = s.link.outbound ∧ t.link.transaction = s.link.transaction ∧
      t.link.enables = s.link.enables

/-- R198 with R17, R44, R61, R142, R155, R179, R180: the warm reset, even with a full outbound queue. The count, the store, the strobe
settings, the whole tracker but its candidate, the output ports, SPC's configuration, the general lines, the enables and the requests
behind the XRESET are kept (those of the buffer by IdleStepServesOldestRequest); the answers are discarded and the answer to XRESET
becomes the head. The head answer of a transaction in progress is then queued no longer (R186; log 27). -/
def Obligations.WarmResetKeepsAndClears : Prop :=
  ∀ (tag : Byte) (s : State), s.running = true → s.link.inbound = [] →
    exec (.xreset tag) s = .next
      { s with
        strobe := { s.strobe with lastEdge := none, queue := [], nextSeq := 0, lost := 0 }
        tracker := { s.tracker with candidate := none }
        lanes := LaneMap.all Lane.reset
        mixer := Mixer.reset
        spc := { s.spc with assembly := none, watch := .idle }
        cues := ⟨Cue.reset, Cue.reset, Cue.reset, Cue.reset⟩
        link :=
          { s.link with
            outbound := [{ type := 0xF0, tag := tag, payload := [0x00] }]
            transaction := s.link.transaction.map (fun t => { t with headLive := false })
            trackerFlags := 0
            portFlags := 0
            cueFlags := 0 } }

/-! ## A block boundary -/

/-- R4, R138, R139, R143, R146, R147: the boundary of the present tick is taken. Every output port's stored configuration comes into
force; an enabled port's emission list takes one more block of 64 pairs, and a disabled one is emptied and its hang count is 0 (R149).
Each pair is the sum of the six lanes' contributions at its position, scaled by the port's master gain and clamped to 24 bits. A lane
contributes the side its channel map gives, times its effective gain, floored at each step; gains and duck levels are those the boundary
leaves. An enabled port counts every clamped value, and sets CLIP when there is one. SPC's configuration comes into force in the same
way; disabled, it has no sample in assembly, and enabled it keeps the one it has, which takes the new format where its period begins at
this very tick (its polarity, and a sample kept through a change of clock mode: log 33). R149: an enabled port's hang count becomes 256,
its tail end absent, where some lane with a nonzero current gain on it is PLAYING as its work left it; else the count falls by 1, and
where it so comes to 0 the tail end is the boundary's time plus the port's latency, or absent with a latency of 0. R153: SPC's clock
watch is IDLE but for an SPC enabled in SLAVE mode with a capture lane RUNNING; there a lane that entered RUNNING at this boundary, or a
watch that was IDLE, makes it WATCHING from the boundary's count, and else it stays. Each lane is the one its own work leaves, with
the actions the cues then hand it. The count, the tracker, the captures, the store, the lines, every lane's configuration, and the
link's queues and enables are as they were. -/
def Obligations.BoundaryTakesEveryBlock : Prop :=
  ∀ (s : State), s.running = true → s.boundaryDue = true →
    ∃ (t : State) (side total : OutPort → Nat → Bool → Int) (clips : OutPort → Nat), exec .blockBoundary s = .next t ∧
      t.boundaryDue = false ∧ t.periodsDue = s.periodsDue ∧
      (∀ p j right, side p j right = (LaneId.list.map (fun i =>
        let v := ((s.lanes.get i).boundaryWork s.boundaryEnv).block.getD j (0, 0)
        let x := match (t.mixer.channel i p).map, right with
          | .stereo, false => v.1
          | .stereo, true => v.2
          | .swap, false => v.2
          | .swap, true => v.1
          | .left, _ => v.1
          | .right, _ => v.2
          | .mono, _ => (v.1 + v.2) / 2
        x * (((t.mixer.channel i p).current * t.mixer.duckLevel.get i / 32768 : Nat) : Int) / 32768)).sum) ∧
      (∀ p j right, total p j right = side p j right * s.mixer.master.get p / 32768) ∧
      (∀ p, clips p = ((List.range 64).map (fun j =>
        (if -8388608 ≤ total p j false ∧ total p j false ≤ 8388607 then 0 else 1) +
          (if -8388608 ≤ total p j true ∧ total p j true ≤ 8388607 then 0 else 1))).sum) ∧
      (∀ p, (t.ports.get p).inForce = (s.ports.get p).format ∧ (t.ports.get p).format = (s.ports.get p).format ∧
        ((s.ports.get p).format.enable = true →
          (t.ports.get p).emission = (s.ports.get p).emission ++ [{
            base := s.count
            pairs := (List.range 64).map (fun j =>
              (max (-8388608) (min 8388607 (total p j false)), max (-8388608) (min 8388607 (total p j true)))) }] ∧
          t.mixer.clips.get p = min (s.mixer.clips.get p + clips p) 65535 ∧
          ((∃ i, (t.lanes.get i).state = .playing ∧ (t.mixer.channel i p).current ≠ 0) →
            (t.ports.get p).hang = 256 ∧ (t.ports.get p).tailEnd = none) ∧
          ((∀ i, (t.lanes.get i).state = .playing → (t.mixer.channel i p).current = 0) →
            (t.ports.get p).hang = (s.ports.get p).hang - 1 ∧
            (t.ports.get p).tailEnd = (if (s.ports.get p).hang ≠ 1 then (s.ports.get p).tailEnd
              else if (s.ports.get p).latency = 0 then none
              else some (s.count + BitVec.ofNat 48 (s.ports.get p).latency)))) ∧
        ((s.ports.get p).format.enable = false →
          (t.ports.get p).emission = [] ∧ (t.ports.get p).staging = (0, 0) ∧ (t.ports.get p).hang = 0 ∧
            (t.ports.get p).tailEnd = none ∧ (t.ports.get p).active = false ∧ t.mixer.clips.get p = s.mixer.clips.get p)) ∧
      t.link.portFlags = s.link.portFlags
        ||| (if s.ports.spa.format.enable = true ∧ clips .spa ≠ 0 then 0x80 else 0)
        ||| (if s.ports.spb.format.enable = true ∧ clips .spb ≠ 0 then 0x40 else 0) ∧
      t.mixer.master = s.mixer.master ∧ (∀ i p, (t.mixer.channel i p).map = (s.mixer.channel i p).map) ∧
      t.spc.inForce = s.spc.format ∧ t.spc.modeInForce = s.spc.mode ∧ (s.spc.format.enable = false → t.spc.assembly = none) ∧
      (s.spc.format.enable = true → t.spc.assembly = s.spc.assembly.map (fun a =>
        if s.spc.selectTaken = true ∧ a.slot = .left then { a with format := { s.spc.format with polarity := a.format.polarity } }
        else a)) ∧
      (s.spc.format.enable = true → s.spc.mode = .slave → (∃ i, (t.lanes.get i).isRunning = true) →
        ((s.spc.watch = .idle ∨
            ∃ i, (t.lanes.get i).isRunning = true ∧ (t.lanes.get i).runNumber ≠ (s.lanes.get i).runNumber) →
          t.spc.watch = .watching s.count) ∧
        (s.spc.watch ≠ .idle →
          (∀ i, (t.lanes.get i).isRunning = true → (t.lanes.get i).runNumber = (s.lanes.get i).runNumber) →
          t.spc.watch = s.spc.watch)) ∧
      ((s.spc.format.enable = false ∨ s.spc.mode = .master ∨ ∀ i, (t.lanes.get i).isRunning = false) → t.spc.watch = .idle) ∧
      (∀ i, t.lanes.get i =
          { ((s.lanes.get i).boundaryWork s.boundaryEnv).lane with actions := (t.lanes.get i).actions } ∧
        (t.lanes.get i).config = (s.lanes.get i).config) ∧
      t.count = s.count ∧ t.running = s.running ∧ t.tracker = s.tracker ∧ t.strobe = s.strobe ∧ t.store = s.store ∧
      t.lines = s.lines ∧ t.pending = s.pending ∧ t.samples = s.samples ∧
      t.link.inbound = s.link.inbound ∧ t.link.outbound = s.link.outbound ∧ t.link.transaction = s.link.transaction ∧
      t.link.enables = s.link.enables ∧ t.link.trackerFlags = s.link.trackerFlags

/-- R84, R121, R123, R124, R125: every lane's block has 64 positions, and with a store of 24-bit samples every sample of it is within 24
bits. The cursor's fraction is below 2^24 (R82). -/
def Obligations.LaneBlockInRange : Prop :=
  ∀ (env : BoundaryEnv) (l : Lane), env.store.InStore → (∀ c, l.cursor = some c → c.frac < 2 ^ 24) →
    (l.boundaryWork env).block.length = 64 ∧
      ∀ v ∈ (l.boundaryWork env).block, -8388608 ≤ v.1 ∧ v.1 ≤ 8388607 ∧ -8388608 ≤ v.2 ∧ v.2 ≤ 8388607

/-- R95: the start position and start content time formed from an aim A and a target, by signed difference: with A not later than the
target, position 0 at the target; with A at most 63 sample periods later, position ceil((A − target) / 512) at a content time not earlier
than A and less than A + 512; with A later still, the alignment waits. R96, step 1, and R118: every frame at the head of the queue whose
end time is not later than C0 is released, one after another, each raising the late-drop counter by 1, or the slip-drop counter while the
lane has a slip mark; the first frame that ends later stays, with all behind it. -/
def Obligations.StartAlignmentFormsAndDrops : Prop :=
  (∀ (aim target : Time),
    ((aim - target).toInt ≤ 0 → alignForm aim target = some (0, target)) ∧
    (0 < (aim - target).toInt → (aim - target).toInt ≤ 63 * 512 →
      ∃ j0 c0, alignForm aim target = some (j0, c0) ∧ 1 ≤ j0 ∧ j0 ≤ 63 ∧ c0 = target + BitVec.ofNat 48 (j0 * 512) ∧
        0 ≤ (c0 - aim).toInt ∧ (c0 - aim).toInt < 512) ∧
    (63 * 512 < (aim - target).toInt → alignForm aim target = none)) ∧
  (∀ (c0 : Time) (l m : Lane) (dropped : Nat), m = l.dropLate c0 l.queue.length →
    dropped = (l.queue.takeWhile (fun f => decide ((f.endTime - c0).toInt ≤ 0))).length →
    l.counters.lateDrops ≤ 65535 → l.counters.slipDrops ≤ 65535 →
    m.queue = l.queue.dropWhile (fun f => decide ((f.endTime - c0).toInt ≤ 0)) ∧
    m = { Lane.releaseHead^[dropped] l with
      counters := if l.slipMark = none then { l.counters with lateDrops := min (l.counters.lateDrops + dropped) 65535 }
        else { l.counters with slipDrops := min (l.counters.slipDrops + dropped) 65535 } } ∧
    m.state = l.state ∧ m.aim = l.aim ∧ m.slipMark = l.slipMark ∧ m.flags = l.flags ∧ m.current = l.current ∧
    m.switch = l.switch ∧ m.config = l.config)

/-- R89 to R93, R95 to R97, R109 to R118, R121 to R124: the work of a PLAY lane with permission and no cue action or switch pending,
against its target, which is house time at the block's emission, SPA's latency added, less the room offset. With no frame queued, ARMED
and STARVED stay and a BRIDGING lane without a held time is STARVED; a PLAYING or HELD lane whose cursor's frame a purge released is
STARVED too, or with frames left works as BRIDGING with aim FRAME. A lane in ARMED, STARVED, BRIDGING or HELD aligns to its aim: the
queue head's pts, the held time (the target itself while BEHIND), or the cursor's content. It waits with its aim while the alignment
waits (StartAlignmentFormsAndDrops), a BRIDGING one with a held time even with an empty queue (the model's reading; R118 could starve it
at once: log 32). Otherwise frames that end by then are dropped; with none left, ARMED stays and the others are STARVED; a next frame
that begins too late makes it wait with aim FRAME, and a kept cursor whose frame is still the head stays (the model's reading; R96 step
3 says any kept cursor has gone: log 17); and else the lane starts in that frame: PLAYING, START and the starts counter, no aim and no
mark, the frame's tag where it begins to play, a step of 2^24 plus the rate term, and a block silent before the start position and faded
in from there. A PLAYING lane forms its error from the target and its cursor's content time. Within the slip limit it trims: the step is
2^24 plus the rate term plus the limited trim term, and the block has no fade. Beyond the limit it slips: SLIP and the slips counter, a
step of 2^24 plus the rate term, a block faded out, and then BRIDGING with the cursor kept, BEHIND and aimed at the target one block on,
or AHEAD and aimed at the cursor. Each sample is interpolated at the cursor, which every position advances by the step. Sounding blocks
are stated here where they stay within one frame (FrameEndOutcomes: a frame's end). -/
def Obligations.PlayingTrimsSlipsAndRealigns : Prop :=
  (∀ s : State, s.boundaryEnv.house = s.tracker.house? (s.count + BitVec.ofNat 48 (33280 + s.ports.spa.latency))) ∧
  ∀ (env : BoundaryEnv) (l starved : Lane) (h t : Time) (silent : Block)
    (value : FrameRecord → Nat → Nat → Nat → Nat → Int) (moved : Nat → Cursor),
    l.config.direction = .play → l.actions = [] → l.switch = none →
    ((l.config.policy = .strict ∧
        (env.tracker.state = .locked ∨ env.tracker.state = .holdover ∨ env.tracker.state = .ref)) ∨
      (l.config.policy = .loose ∧ env.tracker.state ≠ .unlocked)) →
    env.house = some h → t = h - BitVec.ofInt 48 l.config.roomOffset → silent = List.replicate 64 (0, 0) →
    starved = { l with
      state := .starved
      cursor := none
      aim := .absent
      slipMark := none
      flags := l.flags ||| 0x40
      counters := { l.counters with starvations := min (l.counters.starvations + 1) 65535 } } →
    (∀ f start step j ch, value f start step j ch =
      let at_ := start + j * step
      let x0 := (env.store.read (l.config.wordAt (f.offset + at_ / 2 ^ 24 * f.channels + ch))).toInt
      let x1 := (env.store.read (l.config.wordAt (f.offset + (at_ / 2 ^ 24 + 1) * f.channels + ch))).toInt
      x0 + (x1 - x0) * ((at_ % 2 ^ 24 / 256 : Nat) : Int) / 65536) →
    (∀ n, moved n = { index := n / 2 ^ 24, frac := n % 2 ^ 24 }) →
    (l.queue = [] →
      ((l.state = .armed ∨ l.state = .starved) → (l.boundaryWork env).lane = l ∧ (l.boundaryWork env).block = silent) ∧
      (l.state = .bridging → (∀ a, l.aim ≠ .time a) →
        (l.boundaryWork env).lane = starved ∧ (l.boundaryWork env).block = silent)) ∧
    ((l.state = .playing ∨ l.state = .held) → l.cursor = none →
      (l.queue = [] → (l.boundaryWork env).lane = starved ∧ (l.boundaryWork env).block = silent) ∧
      (l.queue ≠ [] → l.boundaryWork env = { l with state := .bridging, aim := .frame }.boundaryWork env)) ∧
    (∀ (aim : Time) (m : Lane),
      ((∃ g more, l.queue = g :: more ∧ aim = g.time ∧
          ((l.state = .armed ∧ m = l) ∨ (l.state = .bridging ∧ l.aim = .frame ∧ m = l) ∨
            (l.state = .starved ∧ m = { l with state := .bridging, aim := .frame }))) ∨
        (∃ a, l.state = .bridging ∧ l.aim = .time a ∧ aim = (if l.slipMark = some .behind then t else a) ∧
          m = { l with aim := .time aim }) ∨
        (∃ g more c, l.state = .held ∧ l.queue = g :: more ∧ l.cursor = some c ∧
          aim = (if l.slipMark = some .behind then t else g.time + BitVec.ofNat 48 (512 * c.index + c.frac / 2 ^ 15)) ∧
          m = { l with state := .bridging, aim := .time aim })) →
      (alignForm aim t = none → (l.boundaryWork env).lane = m ∧ (l.boundaryWork env).block = silent) ∧
      (∀ (j0 : Nat) (c0 : Time) (n : Lane), alignForm aim t = some (j0, c0) → n = m.dropLate c0 m.queue.length →
        (n.queue = [] → (l.boundaryWork env).block = silent ∧
          (l.state = .armed → (l.boundaryWork env).lane = { n with cursor := none }.watermark l.buffered) ∧
          (l.state ≠ .armed → (l.boundaryWork env).lane = { n with
            state := .starved
            cursor := none
            aim := .absent
            slipMark := none
            flags := l.flags ||| 0x40
            counters := { n.counters with starvations := min (n.counters.starvations + 1) 65535 } }.watermark l.buffered)) ∧
        (∀ f rest, n.queue = f :: rest →
          (0 < (f.time - c0).toInt → alignForm f.time t = none →
            (l.boundaryWork env).lane = { n with aim := .frame }.watermark l.buffered ∧
            (l.boundaryWork env).block = silent) ∧
          (∀ (j len start step : Nat) (c : Time) (k : Lane),
            (((f.time - c0).toInt ≤ 0 ∧ j = j0 ∧ c = c0) ∨ (0 < (f.time - c0).toInt ∧ alignForm f.time t = some (j, c))) →
            j + len = 64 → 0 < step → (step : Int) = 2 ^ 24 + (2 * env.tracker.q + 256) / 512 →
            start = (c - f.time).toInt.toNat * 2 ^ 15 → start + len * step ≤ (f.samples - 1) * 2 ^ 24 →
            k = { n with
              queue := { f with status := .playing } :: rest
              cursor := some (moved (start + len * step))
              state := .playing
              aim := .absent
              slipMark := none
              lastStep := some step
              lastTag := if f.status ≠ .playing ∧ f.tag ≠ none then f.tag else l.lastTag
              counters := { n.counters with starts := min (n.counters.starts + 1) 65535 }
              flags := l.flags ||| (if f.status ≠ .playing ∧ f.tag ≠ none then 0x02 else 0) ||| 0x80 } →
            (l.boundaryWork env).lane = k.watermark l.buffered ∧
            (l.boundaryWork env).block = List.replicate j (0, 0) ++ (List.range len).map (fun p =>
              (value f start step p 0 * ((j : Int) + p + 1) / 64,
                value f start step p (if l.config.channels = 1 then 0 else 1) * ((j : Int) + p + 1) / 64)))))) ∧
    (∀ (f : FrameRecord) (rest : List FrameRecord) (step start : Nat) (c d : Cursor) (e : Int) (m : Lane),
      l.state = .playing → l.cursor = some c → l.queue = f :: rest → c.frac < 2 ^ 24 → start = c.index * 2 ^ 24 + c.frac →
      e = (t - (f.time + BitVec.ofNat 48 (512 * c.index + c.frac / 2 ^ 15))).toInt →
      0 < step → start + 64 * step ≤ (f.samples - 1) * 2 ^ 24 → d = moved (start + 64 * step) →
      (e.natAbs ≤ l.config.slipLimit →
        (step : Int) = 2 ^ 24 + (2 * env.tracker.q + 256) / 512
          + max (-(l.config.trimMax : Int)) (min l.config.trimMax (e * 2 ^ (15 - l.config.gs))) →
        m = { l with lastError := some e, lastStep := some step, cursor := some d } →
        (l.boundaryWork env).lane = m.watermark l.buffered ∧
        (l.boundaryWork env).block = (List.range 64).map (fun j =>
          (value f start step j 0, value f start step j (if l.config.channels = 1 then 0 else 1)))) ∧
      (l.config.slipLimit < e.natAbs →
        (step : Int) = 2 ^ 24 + (2 * env.tracker.q + 256) / 512 →
        m = { l with
          lastError := some e
          lastStep := some step
          cursor := some d
          state := .bridging
          slipMark := some (if 0 < e then .behind else .ahead)
          aim := .time (if 0 < e then t + 32768 else f.time + BitVec.ofNat 48 (512 * d.index + d.frac / 2 ^ 15))
          counters := { l.counters with slips := min (l.counters.slips + 1) 65535 }
          flags := l.flags ||| 0x04 } →
        (l.boundaryWork env).lane = m.watermark l.buffered ∧
        (l.boundaryWork env).block = (List.range 64).map (fun j =>
          (value f start step j 0 * (63 - (j : Int)) / 64,
            value f start step j (if l.config.channels = 1 then 0 else 1) * (63 - (j : Int)) / 64))))

/-- R98 to R102, R66, R69, R122: after each position the cursor advances by the step; below the frame's samples it stays in the frame.
At the frame's end the frame is released, and in a block that is not a STOPPING one an END frame leaves the lane DRAINED, with no next
frame it is STARVED, and a gap of more than 256 ticks makes it BRIDGING toward the next frame. Otherwise, in any block, the cursor
enters the next frame, after the samples an overlap of more than 256 ticks skips, counted as an overlap (in a STOPPING block the counter
is the model's reading of R94: log 25). A QUEUED frame so entered is PLAYING, its tag recorded and flagged, and one of the pending
stream commits the switch. A new index that passes that frame too ends it within the same advance (R99): an advance of no step from
there. R121, R123, R124: a run of positions is a walk of such advances. While the cursor is present a position is the sample at it, x0
to x1 interpolated and faded: x1 is the next sample of the frame or, at its last index, that of the next frame at the index the cursor
will enter, where the end is no END, no gap and no DISCONTINUITY and the frame holds that index, and else x0. That index takes the
block's own step, also where this advance stays short of the end (the model's reading: log 13). Once a frame end has taken the cursor
away every position is silent. The blocks of a PLAYING lane, trimmed or slipping, of a lane that starts (silent up to its start
position) and of a STOPPING one are such runs, with every frame end within them. After a slip block only a lane with its cursor is
BRIDGING with mark and aim (R116, R119). -/
def Obligations.FrameEndOutcomes : Prop :=
  (∀ (k : BlockKind) (step : Nat) (l m : Lane) (f : FrameRecord) (rest : List FrameRecord) (c d : Cursor),
    l.queue = f :: rest → m = l.releaseHead →
    d = { index := c.index + (c.frac + step) / 2 ^ 24, frac := (c.frac + step) % 2 ^ 24 } →
    (d.index < f.samples → l.advance k step f c = { l with cursor := some d }) ∧
    (k ≠ .stop → f.samples ≤ d.index → f.endMark = true →
      l.advance k step f c = { m with state := .drained, cursor := none, flags := l.flags ||| 0x20 }) ∧
    (k ≠ .stop → f.samples ≤ d.index → f.endMark = false → rest = [] →
      l.advance k step f c = { m with
        state := .starved, cursor := none, aim := .absent, slipMark := none, flags := l.flags ||| 0x40,
        counters := { l.counters with starvations := min (l.counters.starvations + 1) 65535 } }) ∧
    (∀ (g : FrameRecord) (more : List FrameRecord) (gap : Int) (n : Nat) (q p : Lane), f.samples ≤ d.index → f.endMark = false →
      rest = g :: more → gap = (g.time - (f.time + BitVec.ofNat 48 (512 * f.samples))).toInt →
      (k ≠ .stop → 256 < gap →
        l.advance k step f c = { m with
          state := .bridging, aim := .frame, cursor := none,
          counters := { l.counters with gaps := min (l.counters.gaps + 1) 65535 } }) ∧
      (gap ≤ 256 → n = (d.index - f.samples) + (if gap < -256 then ((-2 * gap + 512) / 1024).toNat else 0) →
        q = { m with
          queue := { g with status := .playing } :: more
          cursor := some { index := n, frac := d.frac }
          counters := if gap < -256 then { l.counters with overlaps := min (l.counters.overlaps + 1) 65535 } else l.counters
          lastTag := if g.status ≠ .playing ∧ g.tag ≠ none then g.tag else l.lastTag
          flags := l.flags ||| (if g.status ≠ .playing ∧ g.tag ≠ none then 0x02 else 0) } →
        (((∀ sw, l.switch = some sw → sw.stream ≠ g.stream ∨ g.status = .playing) ∧ p = q) ∨
          ((∃ sw, l.switch = some sw ∧ sw.stream = g.stream ∧ g.status ≠ .playing) ∧ p = q.commit)) →
        (n < g.samples → l.advance k step f c = p) ∧
        (g.samples ≤ n →
          l.advance k step f c = p.advance k 0 { g with status := .playing } { index := n, frac := d.frac }) ∧
        (∀ sw, l.switch = some sw → sw.stream = g.stream → g.status = .queued →
          p.current = some g.stream ∧ p.switch = none ∧ p.cursor = some { index := n, frac := d.frac } ∧
          p.queue = { g with status := .playing } ::
            more.filter (fun x => !(decide (x.status = .queued) && decide (l.current = some x.stream))))))) ∧
  (∀ (store : Memory) (k : BlockKind) (step n j : Nat) (walk : Nat → Lane) (run : Lane × Block),
    (∀ i, ((walk i).cursor = none ∨ (walk i).queue = []) → walk (i + 1) = walk i) →
    (∀ i c f rest, (walk i).cursor = some c → (walk i).queue = f :: rest → walk (i + 1) = (walk i).advance k step f c) →
    run = produce store k step n j (walk 0) →
    run.1 = walk n ∧ run.2.length = n ∧
    (∀ i, i < n → ((walk i).cursor = none ∨ (walk i).queue = []) → run.2[i]? = some (0, 0)) ∧
    (∀ (i : Nat) (c : Cursor) (f : FrameRecord) (rest : List FrameRecord) (sample : FrameRecord → Nat → Nat → Int)
        (x0 x1 v : Nat → Int), i < n → (walk i).cursor = some c → (walk i).queue = f :: rest →
      (∀ g index ch, sample g index ch = (store.read ((walk i).config.wordAt (g.offset + index * g.channels + ch))).toInt) →
      (∀ ch, x0 ch = sample f c.index ch) →
      (c.index + 1 < f.samples → ∀ ch, x1 ch = sample f (c.index + 1) ch) →
      (f.samples ≤ c.index + 1 → (f.endMark = true ∨ rest = []) → ∀ ch, x1 ch = x0 ch) →
      (∀ (g : FrameRecord) (more : List FrameRecord) (gap : Int) (index : Nat), f.samples ≤ c.index + 1 → f.endMark = false →
        rest = g :: more → gap = (g.time - (f.time + BitVec.ofNat 48 (512 * f.samples))).toInt →
        index = ((c.frac + step) / 2 ^ 24 - 1) + (if gap < -256 then ((-2 * gap + 512) / 1024).toNat else 0) →
        (gap ≤ 256 → index < g.samples → g.disc = false → ∀ ch, x1 ch = sample g index ch) ∧
        ((256 < gap ∨ g.samples ≤ index ∨ g.disc = true) → ∀ ch, x1 ch = x0 ch)) →
      (∀ ch, v ch =
        let s := x0 ch + (x1 ch - x0 ch) * ((c.frac / 256 : Nat) : Int) / 65536
        match k with
        | .trim => s
        | .start => s * ((j : Int) + i + 1) / 64
        | .slip => s * (63 - ((j : Int) + i)) / 64
        | .stop => s * (63 - ((j : Int) + i)) / 64) →
      run.2[i]? = some (v 0, v (if (walk i).config.channels = 1 then 0 else 1)))) ∧
  (∀ (env : BoundaryEnv) (l : Lane) (h t : Time) (plain : Int), l.config.direction = .play → l.actions = [] →
    (∀ sw p, l.switch = some sw → env.target l = some p → (p - sw.time).toInt < 0) →
    ((l.config.policy = .strict ∧
        (env.tracker.state = .locked ∨ env.tracker.state = .holdover ∨ env.tracker.state = .ref)) ∨
      (l.config.policy = .loose ∧ env.tracker.state ≠ .unlocked)) →
    env.house = some h → t = h - BitVec.ofInt 48 l.config.roomOffset →
    plain = 2 ^ 24 + (2 * env.tracker.q + 256) / 512 →
    (∀ (f : FrameRecord) (rest : List FrameRecord) (c : Cursor) (e trim : Int) (step : Nat) (run : Lane × Block),
      l.cursor = some c → l.queue = f :: rest →
      e = (t - (f.time + BitVec.ofNat 48 (512 * c.index + c.frac / 2 ^ 15))).toInt →
      trim = max (-(l.config.trimMax : Int)) (min l.config.trimMax (e * 2 ^ (15 - l.config.gs))) →
      (l.state = .playing → e.natAbs ≤ l.config.slipLimit → (step : Int) = plain + trim →
        run = produce env.store .trim step 64 0 { l with lastError := some e, lastStep := some step } →
        (l.boundaryWork env).lane = run.1.watermark l.buffered ∧ (l.boundaryWork env).block = run.2) ∧
      (∀ halt, l.state = .stopping → l.halt = some halt → halt.fromCursor = true → (step : Int) = plain + trim →
        run = produce env.store .stop step 64 0 { l with lastError := some e, lastStep := some step } →
        (l.boundaryWork env).lane = run.1.completeStop.watermark l.buffered ∧ (l.boundaryWork env).block = run.2) ∧
      (l.state = .playing → l.config.slipLimit < e.natAbs → (step : Int) = plain →
        run = produce env.store .slip step 64 0 { l with
          lastError := some e
          lastStep := some step
          counters := { l.counters with slips := min (l.counters.slips + 1) 65535 }
          flags := l.flags ||| 0x04 } →
        (l.boundaryWork env).block = run.2 ∧
        ((run.1.cursor = none ∨ run.1.queue = []) → (l.boundaryWork env).lane = run.1.watermark l.buffered) ∧
        (∀ d g more, run.1.cursor = some d → run.1.queue = g :: more →
          (l.boundaryWork env).lane = ({ run.1 with
            state := .bridging
            slipMark := some (if 0 < e then .behind else .ahead)
            aim := .time (if 0 < e then t + 32768 else g.time + BitVec.ofNat 48 (512 * d.index + d.frac / 2 ^ 15)) }
              : Lane).watermark l.buffered))) ∧
    (∀ (aim : Time) (m n : Lane) (j step : Nat) (run : Lane × Block),
      ((∃ g more, l.queue = g :: more ∧ aim = g.time ∧
          ((l.state = .armed ∧ m = l) ∨ (l.state = .bridging ∧ l.aim = .frame ∧ m = l) ∨
            (l.state = .starved ∧ m = { l with state := .bridging, aim := .frame }))) ∨
        (∃ a, l.state = .bridging ∧ l.aim = .time a ∧ aim = (if l.slipMark = some .behind then t else a) ∧
          m = { l with aim := .time aim }) ∨
        (∃ g more c, l.state = .held ∧ l.queue = g :: more ∧ l.cursor = some c ∧
          aim = (if l.slipMark = some .behind then t else g.time + BitVec.ofNat 48 (512 * c.index + c.frac / 2 ^ 15)) ∧
          m = { l with state := .bridging, aim := .time aim })) →
      m.align t aim = .placed n j → (step : Int) = plain →
      run = produce env.store .start step (64 - j) j { n with
        state := .playing
        aim := .absent
        slipMark := none
        lastStep := some step
        counters := { n.counters with starts := min (n.counters.starts + 1) 65535 }
        flags := n.flags ||| 0x80 } →
      (l.boundaryWork env).lane = run.1.watermark l.buffered ∧
      (l.boundaryWork env).block = List.replicate j (0, 0) ++ run.2))

/-- R79: a purge releases every frame record of a PLAY lane whose epoch is neither the tracker's nor the candidate, whatever its status or
place, and counts each; the other frames keep their order, and a CAPTURE lane is untouched. The release is that of R71 and R56
(ReleaseMarksAndReclaims): the ring's allocations and reclaim offset follow it, and a cursor goes with its PLAYING frame. The buffered
count changes once, with the watermark check of R60: LOW is set where it fell below the low watermark, HIGH where it rose above the high
one. Nothing else of the lane changes, neither its binding nor its pending switch. That the lane's state stays until its next boundary is
R80, as the model reads it: a worked table of the spec shows the state changed at once (log 6). -/
def Obligations.PurgeLeavesOnlyTheEpochs : Prop :=
  ∀ (i : LaneId) (s : State) (l r : Lane) (gone : FrameRecord → Bool), l = s.lanes.get i →
    (∀ f, gone f = (decide (f.epoch ≠ s.tracker.epoch) && decide (s.tracker.candidate ≠ some f.epoch))) →
    r = l.releaseWhere gone →
    (l.config.direction = .capture → s.purge.lanes.get i = l) ∧
    (l.config.direction = .play →
      s.purge.lanes.get i = { r with
        counters := { l.counters with purges := min (l.counters.purges + (l.queue.filter gone).length) 65535 }
        flags := l.flags
          ||| (if l.config.low ≤ l.buffered ∧ r.buffered < l.config.low then 0x10 else 0)
          ||| (if l.buffered ≤ l.config.high ∧ l.config.high < r.buffered then 0x08 else 0) } ∧
      (s.purge.lanes.get i).queue =
        l.queue.filter (fun f => decide (f.epoch = s.tracker.epoch) || decide (s.tracker.candidate = some f.epoch)) ∧
      (s.purge.lanes.get i).cursor = (if ∃ f ∈ l.queue, gone f = true ∧ f.status = .playing then none else l.cursor) ∧
      (s.purge.lanes.get i).state = l.state ∧ (s.purge.lanes.get i).aim = l.aim ∧ (s.purge.lanes.get i).current = l.current ∧
      (s.purge.lanes.get i).switch = l.switch ∧ (s.purge.lanes.get i).config = l.config)

/-- R94: a lane in STOPPING with no cue action pending completes the stop at its boundary: STOPPED, no cursor, no aim, no halt choice,
no slip mark, no frame PLAYING, every frame released where flush was chosen. Frame ends within the block set neither STARVED nor DRAINED
and count no starvation and no gap. R114, R121, R122, R124: where no switch is due, its block is silent with fade source SILENCE, with
the cursor gone, or without permission, and nothing else of the lane changes than the stop. With fade source CURSOR and permission the
lane forms its error from the target and its cursor's content time, and never slips: the step is 2^24 plus the rate term plus the
limited trim term, error and step are recorded, and the block is the samples interpolated at the cursor, each times (63 − j) / 64 and
floored, stated here where it stays within one frame. The cursor's frame is QUEUED again, and the boundary's one watermark check follows
R60. A frame end reached in the block releases the frame: at an END frame, with no next frame, or at a gap of more than 256 ticks the
cursor goes, and else it continues into the next frame as in any other block (FrameEndOutcomes). That an overlap then raises the overlap
counter there too (R99, R106) is the model's reading, since R94 does not name it (log 25). -/
def Obligations.StoppingCompletes : Prop :=
  (∀ (env : BoundaryEnv) (l : Lane) (h : Halt),
    l.config.direction = .play → l.state = .stopping → l.halt = some h → l.actions = [] →
    ((l.boundaryWork env).lane.state = .stopped ∧ (l.boundaryWork env).lane.cursor = none ∧
      (l.boundaryWork env).lane.aim = .absent ∧ (l.boundaryWork env).lane.halt = none ∧
      (l.boundaryWork env).lane.slipMark = none ∧ (h.flush = true → (l.boundaryWork env).lane.queue = []) ∧
      (∀ f ∈ (l.boundaryWork env).lane.queue, f.status ≠ .playing) ∧
      (l.boundaryWork env).lane.flags &&& 0x60 = l.flags &&& 0x60 ∧
      (l.boundaryWork env).lane.counters.starvations = l.counters.starvations ∧
      (l.boundaryWork env).lane.counters.gaps = l.counters.gaps) ∧
    (∀ (n k : Lane) (allowed : Prop),
      (∀ sw p, l.switch = some sw → env.target l = some p → (p - sw.time).toInt < 0) →
      (allowed ↔ (l.config.policy = .strict ∧
          (env.tracker.state = .locked ∨ env.tracker.state = .holdover ∨ env.tracker.state = .ref)) ∨
        (l.config.policy = .loose ∧ env.tracker.state ≠ .unlocked)) →
      n = { l with
        state := .stopped
        cursor := none
        aim := .absent
        halt := none
        slipMark := none
        queue := l.queue.map (fun f => if f.status = .playing then { f with status := .queued } else f) } →
      ((h.fromCursor = false ∨ l.cursor = none ∨ ¬ allowed) →
        k = (if h.flush = true then n.releaseWhere (fun _ => true) else n) →
        (l.boundaryWork env).lane = k.watermark l.buffered ∧ (l.boundaryWork env).block = List.replicate 64 (0, 0)) ∧
      (∀ (f : FrameRecord) (rest : List FrameRecord) (step start : Nat) (c : Cursor) (e : Int) (house t : Time)
          (value : Nat → Nat → Int),
        h.fromCursor = true → allowed → env.house = some house → t = house - BitVec.ofInt 48 l.config.roomOffset →
        l.cursor = some c → l.queue = f :: rest → c.frac < 2 ^ 24 → start = c.index * 2 ^ 24 + c.frac →
        e = (t - (f.time + BitVec.ofNat 48 (512 * c.index + c.frac / 2 ^ 15))).toInt →
        0 < step → start + 64 * step ≤ (f.samples - 1) * 2 ^ 24 →
        (step : Int) = 2 ^ 24 + (2 * env.tracker.q + 256) / 512
          + max (-(l.config.trimMax : Int)) (min l.config.trimMax (e * 2 ^ (15 - l.config.gs))) →
        (∀ j ch, value j ch =
          let at_ := start + j * step
          let x0 := (env.store.read (l.config.wordAt (f.offset + at_ / 2 ^ 24 * f.channels + ch))).toInt
          let x1 := (env.store.read (l.config.wordAt (f.offset + (at_ / 2 ^ 24 + 1) * f.channels + ch))).toInt
          x0 + (x1 - x0) * ((at_ % 2 ^ 24 / 256 : Nat) : Int) / 65536) →
        k = (if h.flush = true then { n with lastError := some e, lastStep := some step }.releaseWhere (fun _ => true)
          else { n with lastError := some e, lastStep := some step }) →
        (l.boundaryWork env).lane = k.watermark l.buffered ∧
        (l.boundaryWork env).block = (List.range 64).map (fun j =>
          (value j 0 * (63 - (j : Int)) / 64,
            value j (if l.config.channels = 1 then 0 else 1) * (63 - (j : Int)) / 64))))) ∧
  (∀ (step : Nat) (l : Lane) (f : FrameRecord) (rest : List FrameRecord) (c d : Cursor), l.queue = f :: rest →
    d = { index := c.index + (c.frac + step) / 2 ^ 24, frac := (c.frac + step) % 2 ^ 24 } →
    (d.index < f.samples → l.advance .stop step f c = { l with cursor := some d }) ∧
    (f.samples ≤ d.index →
      (f.endMark = true ∨ rest = [] ∨ ∃ g more, rest = g :: more ∧
        256 < (g.time - (f.time + BitVec.ofNat 48 (512 * f.samples))).toInt) →
      l.advance .stop step f c = { l.releaseHead with cursor := none }) ∧
    (∀ (g : FrameRecord) (more : List FrameRecord) (gap : Int), f.samples ≤ d.index → f.endMark = false → rest = g :: more →
      gap = (g.time - (f.time + BitVec.ofNat 48 (512 * f.samples))).toInt → gap ≤ 256 →
      (d.index - f.samples) + (if gap < -256 then ((-2 * gap + 512) / 1024).toNat else 0) < g.samples →
      l.advance .stop step f c = l.advance .trim step f c))

/-- R83: no block holds non-silent samples from a lane whose sync policy does not permit the tracker state found at the boundary: all its
64 positions are 0. R93: a PLAYING lane that finds its permission gone becomes HELD. It keeps its cursor and its queue, the HELD flag is
set, and the hold counter rises by 1. R89 to R92: without permission a lane in ARMED, in BRIDGING (its queue empty or not: log 36), in
HELD with its cursor, or in STARVED with an empty queue stays as it is, and one in STARVED with a frame becomes BRIDGING with aim
FRAME. R92, R93: a lane in PLAYING or HELD whose cursor is gone, its frame released by a purge, becomes STARVED with no frame left (the
STARVED flag set, the starvation counter up by 1), and BRIDGING with aim FRAME with one; permission does not enter. -/
def Obligations.SilentAndHeldWithoutPermission : Prop :=
  ∀ (env : BoundaryEnv) (l : Lane),
    ((l.config.policy = .strict ∧ env.tracker.state ≠ .locked ∧ env.tracker.state ≠ .holdover ∧ env.tracker.state ≠ .ref) ∨
      (l.config.policy = .loose ∧ env.tracker.state = .unlocked)) →
    (l.boundaryWork env).block = List.replicate 64 (0, 0) ∧
    (l.config.direction = .play → l.state = .playing → l.cursor ≠ none → l.queue ≠ [] → l.switch = none → l.actions = [] →
      (l.boundaryWork env).lane = { l with
        state := .held
        flags := l.flags ||| 0x01
        counters := { l.counters with holds := min (l.counters.holds + 1) 65535 } }) ∧
    (l.config.direction = .play → l.switch = none → l.actions = [] →
      ((l.state = .armed ∨ l.state = .bridging ∨ (l.state = .held ∧ l.cursor ≠ none ∧ l.queue ≠ []) ∨
          (l.state = .starved ∧ l.queue = [])) → (l.boundaryWork env).lane = l) ∧
      (l.state = .starved → l.queue ≠ [] → (l.boundaryWork env).lane = { l with state := .bridging, aim := .frame }) ∧
      ((l.state = .playing ∨ l.state = .held) → l.cursor = none →
        (l.queue = [] → (l.boundaryWork env).lane = { l with
          state := .starved
          cursor := none
          aim := .absent
          slipMark := none
          flags := l.flags ||| 0x40
          counters := { l.counters with starvations := min (l.counters.starvations + 1) 65535 } }) ∧
        (l.queue ≠ [] → (l.boundaryWork env).lane = { l with state := .bridging, aim := .frame })))

/-- R134: a boundary first applies the gain actions whose expiry was the boundary before, in the order of the list, which is that of
their cues (R133), and removes them: each begins a ramp from the current gain over its number of blocks, the channel map unchanged, so
that of several for one channel the last is the one in force. R130, R141: then every ramp that is not complete steps once: b rises by 1,
and the current gain becomes start + trunc((target − start) × b / n), between start and target, and equal to the target when b reaches
n. A complete ramp is left unchanged. R135, R136: each lane's duck target is the depth of the highest class above its own that a PLAYING
lane has, as the lanes' work at this boundary left them, or 32,768; its duck level moves toward it by at most ceil(32,768 / attack) down
or ceil(32,768 / release) up, and not past it. -/
def Obligations.BoundaryStepsTheMixer : Prop :=
  ∀ (s : State) (i : LaneId), s.running = true → s.boundaryDue = true →
    ∃ (t : State) (begun : OutPort → Channel) (sounds : Nat → Prop) (target : Nat), exec .blockBoundary s = .next t ∧
      (∀ p, begun p = (match (s.mixer.actions.filter (fun a =>
          decide (a.expiry + 1 = blockIndex s.count) && decide (a.lane = i) && decide (a.port = p))).getLast? with
        | none => s.mixer.channel i p
        | some a => { map := (s.mixer.channel i p).map, current := (s.mixer.channel i p).current,
                      start := (s.mixer.channel i p).current, target := a.gain, n := a.ramp, b := 0 })) ∧
      (∀ p,
        ((begun p).b < (begun p).n →
          (t.mixer.channel i p).b = (begun p).b + 1 ∧
          ((t.mixer.channel i p).current : Int) = (begun p).start +
            Int.tdiv ((((begun p).target : Int) - (begun p).start) * ((begun p).b + 1)) (begun p).n ∧
          min (begun p).start (begun p).target ≤ (t.mixer.channel i p).current ∧
          (t.mixer.channel i p).current ≤ max (begun p).start (begun p).target ∧
          ((t.mixer.channel i p).b = (begun p).n → (t.mixer.channel i p).current = (begun p).target) ∧
          (t.mixer.channel i p).start = (begun p).start ∧ (t.mixer.channel i p).target = (begun p).target ∧
          (t.mixer.channel i p).n = (begun p).n ∧ (t.mixer.channel i p).map = (begun p).map) ∧
        ((begun p).n ≤ (begun p).b → t.mixer.channel i p = begun p)) ∧
      (∀ a ∈ t.mixer.actions, a.expiry + 1 ≠ blockIndex s.count) ∧
      (∀ a ∈ s.mixer.actions, a.expiry + 1 ≠ blockIndex s.count → a ∈ t.mixer.actions) ∧
      (∀ c, sounds c ↔ ∃ j, (t.lanes.get j).state = .playing ∧ s.mixer.duckClass.get j = c) ∧
      (s.mixer.duckClass.get i < 3 → sounds 3 → target = s.mixer.d3) ∧
      (s.mixer.duckClass.get i < 2 → sounds 2 → ¬ sounds 3 → target = s.mixer.d2) ∧
      (s.mixer.duckClass.get i < 1 → sounds 1 → ¬ sounds 2 → ¬ sounds 3 → target = s.mixer.d1) ∧
      ((∀ c, s.mixer.duckClass.get i < c → c ≤ 3 → ¬ sounds c) → target = 32768) ∧
      (target < s.mixer.duckLevel.get i →
        t.mixer.duckLevel.get i =
          max target (s.mixer.duckLevel.get i - (32768 + s.mixer.attack - 1) / s.mixer.attack)) ∧
      (s.mixer.duckLevel.get i ≤ target →
        t.mixer.duckLevel.get i =
          min target (s.mixer.duckLevel.get i + (32768 + s.mixer.release - 1) / s.mixer.release)) ∧
      t.mixer.duckClass = s.mixer.duckClass ∧ t.mixer.attack = s.mixer.attack ∧ t.mixer.release = s.mixer.release

/-! ## Strobe capture -/

/-- R6 to R11: a transition of STROBE is accepted exactly when it is of the chosen direction, passes the spacing test and passes the order
test. It is then appended with its latency removed and the next sequence, and becomes the last accepted edge; a full queue first loses
its oldest entry, with the counter and CAPLOST. Otherwise nothing changes. -/
def Obligations.StrobeEdgeCaptured : Prop :=
  ∀ (dir : EdgeDir) (s : State), s.running = true → s.strobe.queue.length ≤ 16 →
    exec (.strobeEdge dir) s = .next (
      if ((s.strobe.polarity = .rising ∧ dir = .rising) ∨ (s.strobe.polarity = .falling ∧ dir = .falling)) ∧
          (∀ e, s.strobe.lastEdge = some e → (s.strobe.spacing.toNat : Int) ≤ (s.count - e).toInt) ∧
          (∀ e, s.strobe.queue.getLast? = some e →
            0 < (s.count - s.strobe.latency.setWidth 48 - e.time).toInt) then
        { s with
          strobe :=
            { s.strobe with
              lastEdge := some s.count
              queue := (if s.strobe.queue.length = 16 then s.strobe.queue.tail else s.strobe.queue)
                ++ [{ seq := s.strobe.nextSeq, time := s.count - s.strobe.latency.setWidth 48, origin := .edge }]
              nextSeq := s.strobe.nextSeq + 1
              lost := if s.strobe.queue.length = 16 then min (s.strobe.lost + 1) 65535 else s.strobe.lost }
          link := { s.link with
            trackerFlags := if s.strobe.queue.length = 16 then s.link.trackerFlags ||| 0x02 else s.link.trackerFlags } }
      else s)

/-- R15: TCAPS of n from 0 to 16 removes up to n entries from the oldest end and returns them, oldest first, with the number remaining,
the next sequence and the lost counter; a count above 16 is refused and the queue is unchanged. -/
def Obligations.TcapsReturnsTheOldest : Prop :=
  ∀ (tag n : Byte) (s : State), s.Ready →
    exec (.tcaps tag n) s = .next (
      if n.toNat ≤ 16 then
        { s with strobe := { s.strobe with queue := s.strobe.queue.drop n.toNat } }.postAnswer
          { type := 0x86, tag := tag,
            payload := [0x00, BitVec.ofNat 8 (min n.toNat s.strobe.queue.length),
                BitVec.ofNat 8 (s.strobe.queue.length - n.toNat), s.strobe.nextSeq]
              ++ put16 (BitVec.ofNat 16 s.strobe.lost)
              ++ ((s.strobe.queue.take n.toNat).map
                  (fun (e : Capture) => e.seq :: put48 e.time ++ [if e.origin = Origin.injected then (0x01 : Byte) else 0x00])).flatten }
      else s.postAnswer { type := 0x86, tag := tag, payload := [0x12] })

/-- R16: TINJ makes a capture at the present count, with no latency subtracted and no spacing test, when that is later than the newest
entry's local time, and is refused with E_STALE otherwise. The last accepted edge does not move. -/
def Obligations.TinjCapturesThePresentCount : Prop :=
  ∀ (tag : Byte) (s : State), s.Ready → s.strobe.queue.length ≤ 16 →
    exec (.tinj tag) s = .next (
      if ∀ e, s.strobe.queue.getLast? = some e → 0 < (s.count - e.time).toInt then
        { s with
          strobe :=
            { s.strobe with
              queue := (if s.strobe.queue.length = 16 then s.strobe.queue.tail else s.strobe.queue)
                ++ [{ seq := s.strobe.nextSeq, time := s.count, origin := .injected }]
              nextSeq := s.strobe.nextSeq + 1
              lost := if s.strobe.queue.length = 16 then min (s.strobe.lost + 1) 65535 else s.strobe.lost }
          link := { s.link with
            trackerFlags := if s.strobe.queue.length = 16 then s.link.trackerFlags ||| 0x02 else s.link.trackerFlags
            outbound := s.link.outbound ++
              [{ type := 0x87, tag := tag, payload := 0x00 :: s.strobe.nextSeq :: put48 s.count }] } }
      else s.postAnswer { type := 0x87, tag := tag, payload := [0x22] })

/-! ## The house clock tracker -/

/-- R8, R11: at 2^46 ticks of age the last accepted edge becomes absent, and the oldest capture leaves the queue, moving no counter and
setting no flag. R19: house time H(L) is undefined in UNLOCKED, and in every other state it is H0 + d + round(d × q / 2^32) modulo 2^48,
with d the signed difference L − L0 and exact halves rounded toward positive infinity. At 2^46 ticks of anchor age the anchors move to
the present tick: L0 takes it, H0 takes H() there, and H() at the present tick is as it was. R35, R36: in LOCKED, Thold after the last
accept, the tracker enters HOLDOVER and sets HOLD; in HOLDOVER, Thold + Tfree after it, it enters FREERUN and sets FREE. The anchors, q
and everything else stay. -/
def Obligations.TimersExpire : Prop :=
  (∀ (k : Tracker) (l : Time) (d n : Int), d = (l - k.l0).toInt → 2 * (d * k.q) < 2 ^ 32 * (2 * n + 1) →
    2 ^ 32 * (2 * n - 1) ≤ 2 * (d * k.q) →
    k.house? l = if k.state = .unlocked then none else some (k.h0 + BitVec.ofInt 48 (d + n))) ∧
  ((∀ (s : State) (e : Time), s.running = true → s.strobe.lastEdge = some e → 2 ^ 46 ≤ (s.count - e).toInt →
    exec .lastAcceptedEdgeExpiry s = .next { s with strobe := { s.strobe with lastEdge := none } }) ∧
  (∀ (s : State) (e : Capture) (rest : List Capture), s.running = true → s.strobe.queue = e :: rest →
    2 ^ 46 ≤ (s.count - e.time).toInt →
    exec .captureEntryExpiry s = .next { s with strobe := { s.strobe with queue := rest } })) ∧
  (∀ (s : State), s.running = true → s.tracker.state ≠ .unlocked → 2 ^ 46 ≤ (s.count - s.tracker.l0).toInt →
    ∃ t h, s.tracker.house? s.count = some h ∧
      exec .reAnchor s = .next t ∧ t = { s with tracker := { s.tracker with h0 := h, l0 := s.count } } ∧
      t.tracker.house? t.count = some h) ∧
  ((∀ (s : State), s.running = true → s.tracker.state = .locked →
    (s.tracker.settings.thold : Int) ≤ (s.count - s.tracker.lastAccept).toInt →
    exec .holdoverExpiry s = .next
      { s with
        tracker := { s.tracker with state := .holdover }
        link := { s.link with trackerFlags := s.link.trackerFlags ||| 0x20 } }) ∧
  (∀ (s : State), s.running = true → s.tracker.state = .holdover →
    (s.tracker.settings.thold + s.tracker.settings.tfree : Int) ≤ (s.count - s.tracker.lastAccept).toInt →
    exec .freerunExpiry s = .next
      { s with
        tracker := { s.tracker with state := .freerun }
        link := { s.link with trackerFlags := s.link.trackerFlags ||| 0x10 } }))

/-- R42: TNOW reports the count, H(now) of R19, H0 + d + round(d × q / 2^32) with d the count less L0, or its absence in UNLOCKED, the
state, the epoch, the candidate or its absence, q and the three counters, and changes nothing else. -/
def Obligations.TnowReportsTheTracker : Prop :=
  ∀ (tag : Byte) (s : State) (d : Int), s.Ready → d = (s.count - s.tracker.l0).toInt →
    exec (.tnow tag) s = .next (s.postAnswer
      { type := 0x81, tag := tag,
        payload := [0x00] ++ put48 s.count
          ++ (if s.tracker.state = .unlocked then [0, 0, 0, 0, 0, 0, 0]
            else 1 :: put48 (s.tracker.h0 + BitVec.ofInt 48 (d + (2 * (d * s.tracker.q) + 2 ^ 32) / 2 ^ 33)))
          ++ [s.tracker.state.code, s.tracker.epoch]
          ++ (match s.tracker.candidate with
            | none => [0, 0]
            | some c => [1, c])
          ++ put32 (BitVec.ofInt 32 s.tracker.q) ++ put16 (BitVec.ofNat 16 s.tracker.accepted)
          ++ put16 (BitVec.ofNat 16 s.tracker.outliers) ++ put16 (BitVec.ofNat 16 s.tracker.stale) })

/-- R14: TSTROBE replaces the three strobe settings together and reports them, or is refused for an unknown polarity code. The queue, the
sequence, the lost counter and the last accepted edge do not move. R41: TSET replaces the nine settings, each clamped into its range (Wacq
to at most 8,388,607, then raised to W), and is answered ADJUSTED exactly when a value was clamped. It changes nothing else. -/
def Obligations.TstrobeAndTset : Prop :=
  (∀ (tag polarity : Byte) (latency spacing : BitVec 16) (s : State), s.Ready →
    (∀ p, (polarity = 0 ∧ p = StrobePolarity.rising) ∨ (polarity = 1 ∧ p = StrobePolarity.falling) →
      exec (.tstrobe tag { polarity := polarity, latency := latency, spacing := spacing }) s = .next
        ({ s with strobe := { s.strobe with polarity := p, latency := latency, spacing := spacing } }.postAnswer
          { type := 0x85, tag := tag, payload := [0x00, polarity] ++ put16 latency ++ put16 spacing })) ∧
    (polarity ≠ 0 → polarity ≠ 1 →
      exec (.tstrobe tag { polarity := polarity, latency := latency, spacing := spacing }) s = .next
        (s.postAnswer { type := 0x85, tag := tag, payload := [0x12] }))) ∧
  (∀ (tag : Byte) (r : TsetReq) (s : State), s.Ready →
    ∃ c : TrackerSettings,
      c.kp = min r.kp.toNat 7 ∧ c.ki = min r.ki.toNat 7 ∧ c.kia = min r.kia.toNat 7 ∧
      c.w = max 25 (min 1048575 r.w.toNat) ∧ c.wacq = max c.w (min r.wacq.toNat 8388607) ∧
      c.nout = max 1 (min 15 r.nout.toNat) ∧ c.nacq = max 2 (min 32 r.nacq.toNat) ∧
      c.thold = max 2457600 (min 245760000 r.thold.toNat) ∧
      c.tfree = max 24576000 (min 14745600000 r.tfree.toNat) ∧
      exec (.tset tag r) s = .next ({ s with tracker := { s.tracker with settings := c } }.postAnswer
        { type := 0x82, tag := tag,
          payload :=
            (if c.kp = r.kp.toNat ∧ c.ki = r.ki.toNat ∧ c.kia = r.kia.toNat ∧ c.w = r.w.toNat ∧ c.wacq = r.wacq.toNat ∧
                c.nout = r.nout.toNat ∧ c.nacq = r.nacq.toNat ∧ c.thold = r.thold.toNat ∧ c.tfree = r.tfree.toNat
              then 0x00 else 0x01) ::
            ([BitVec.ofNat 8 c.kp, BitVec.ofNat 8 c.ki, BitVec.ofNat 8 c.kia] ++ put32 (BitVec.ofNat 32 c.w)
              ++ put32 (BitVec.ofNat 32 c.wacq) ++ [BitVec.ofNat 8 c.nout, BitVec.ofNat 8 c.nacq]
              ++ put32 (BitVec.ofNat 32 c.thold) ++ put48 (BitVec.ofNat 48 c.tfree)) }))

/-- R38, R39, R40, R27: TROLE to REFERENCE in the FOLLOWER role lets house time run on from the estimate (from the present count in
UNLOCKED) with q 0 in REF; TROLE to FOLLOWER in the REFERENCE role leaves the anchors and goes to UNLOCKED. TROLE to the role already
held leaves the role, state, anchors, q and counters. All take the carried epoch and leave no candidate; EPOCH is set when the epoch
changed, and every lane is purged when the epoch or the candidate changed. R200: an unknown role code is refused with E_RANGE. -/
def Obligations.TroleChangesTheRole : Prop :=
  ∀ (tag epoch : Byte) (s : State), s.Ready →
    (s.tracker.role = .follower →
      ∃ t, exec (.trole tag { role := 1, epoch := epoch }) s = .next t ∧
        t.tracker = { s.tracker with
          h0 := (s.tracker.house? s.count).getD s.count, l0 := s.count, q := 0, acquireCount := 0, outlierRun := 0,
          state := .ref, role := .reference, candidate := none, epoch := epoch } ∧
        t.link = { s.link with
          trackerFlags := if epoch = s.tracker.epoch then s.link.trackerFlags else s.link.trackerFlags ||| 0x04
          outbound := s.link.outbound ++ [{ type := 0x83, tag := tag, payload := [0x00, 1, 5, epoch] }] } ∧
        (∀ i, t.lanes.get i =
          if epoch = s.tracker.epoch ∧ s.tracker.candidate = none then s.lanes.get i
          else (s.lanes.get i).purge epoch none) ∧
        t = { s with tracker := t.tracker, link := t.link, lanes := t.lanes }) ∧
    (s.tracker.role = .reference →
      ∃ t, exec (.trole tag { role := 0, epoch := epoch }) s = .next t ∧
        t.tracker = { s.tracker with role := .follower, state := .unlocked, candidate := none, epoch := epoch } ∧
        t.link = { s.link with
          trackerFlags := if epoch = s.tracker.epoch then s.link.trackerFlags else s.link.trackerFlags ||| 0x04
          outbound := s.link.outbound ++ [{ type := 0x83, tag := tag, payload := [0x00, 0, 0, epoch] }] } ∧
        (∀ i, t.lanes.get i =
          if epoch = s.tracker.epoch ∧ s.tracker.candidate = none then s.lanes.get i
          else (s.lanes.get i).purge epoch none) ∧
        t = { s with tracker := t.tracker, link := t.link, lanes := t.lanes }) ∧
    (∀ role : Byte, ((s.tracker.role = .follower ∧ role = 0) ∨ (s.tracker.role = .reference ∧ role = 1)) →
      ∃ t, exec (.trole tag { role := role, epoch := epoch }) s = .next t ∧
        t.tracker = { s.tracker with candidate := none, epoch := epoch } ∧
        t.link = { s.link with
          trackerFlags := if epoch = s.tracker.epoch then s.link.trackerFlags else s.link.trackerFlags ||| 0x04
          outbound := s.link.outbound ++
            [{ type := 0x83, tag := tag, payload := [0x00, role, s.tracker.state.code, epoch] }] } ∧
        (∀ i, t.lanes.get i =
          if epoch = s.tracker.epoch ∧ s.tracker.candidate = none then s.lanes.get i
          else (s.lanes.get i).purge epoch none) ∧
        t = { s with tracker := t.tracker, link := t.link, lanes := t.lanes }) ∧
    (∀ role : Byte, 1 < role.toNat →
      exec (.trole tag { role := role, epoch := epoch }) s = .next
        (s.postAnswer { type := 0x83, tag := tag, payload := [0x12] }))

/-- R12, R22, R24, R27, R30, R32, R33: a timing pair of the current epoch in LOCKED or HOLDOVER, later than the anchors. The named capture
and every older one leave the queue, and a candidate held becomes absent, with a purge of every lane. With an error within W the pair
tracks: q takes the clamped sum with Δq (0 below 245,760 ticks), H0 takes Hp plus the rounded fraction of the error, the state is LOCKED,
with LOCKED set out of HOLDOVER, and the answer is TRACKED. With a larger error it is an outlier: it is counted, the anchors and q stay,
and the Nout-th in a run breaks lock, into ACQUIRING with acquire count 0 and UNLOCK set. Nothing else changes. -/
def Obligations.TsyncTracksAPair : Prop :=
  ∀ (tag seq : Byte) (house : Time) (older newer : List Capture) (e : Capture) (s : State) (d err dq : Int) (hp : Time),
    s.Ready → s.tracker.role = .follower → (s.tracker.state = .locked ∨ s.tracker.state = .holdover) →
    s.strobe.queue = older ++ e :: newer → (∀ x ∈ older, x.seq ≠ seq) → e.seq = seq →
    d = (e.time - s.tracker.l0).toInt → 0 < d → s.tracker.house? e.time = some hp → err = (house - hp).toInt →
    dq = (if d < 245760 then 0
      else (2 * (err * 2 ^ 32) + d * 2 ^ s.tracker.settings.ki) / (2 * (d * 2 ^ s.tracker.settings.ki))) →
    ∃ (t : State) (flags outcome : Byte), exec (.tsync tag { seq := seq, epoch := s.tracker.epoch, house := house }) s = .next t ∧
      (err.natAbs ≤ s.tracker.settings.w →
        t.tracker = { s.tracker with
          candidate := none
          q := max (-858993) (min 858993 (s.tracker.q + dq))
          h0 := hp + BitVec.ofInt 48 ((2 * err + 2 ^ s.tracker.settings.kp) / (2 * 2 ^ s.tracker.settings.kp))
          l0 := e.time
          outlierRun := 0
          lastAccept := e.time
          accepted := min (s.tracker.accepted + 1) 65535
          state := .locked } ∧
        flags = (if s.tracker.state = .holdover then 0x80 else 0) ∧ outcome = 3) ∧
      (s.tracker.settings.w < err.natAbs → outcome = 4 ∧
        (s.tracker.outlierRun + 1 < s.tracker.settings.nout →
          t.tracker = { s.tracker with
            candidate := none
            outliers := min (s.tracker.outliers + 1) 65535
            outlierRun := s.tracker.outlierRun + 1 } ∧ flags = 0) ∧
        (s.tracker.settings.nout ≤ s.tracker.outlierRun + 1 →
          t.tracker = { s.tracker with
            candidate := none
            outliers := min (s.tracker.outliers + 1) 65535
            outlierRun := 0
            acquireCount := 0
            state := .acquiring } ∧ flags = 0x40)) ∧
      t.link = { s.link with
        trackerFlags := s.link.trackerFlags ||| flags
        outbound := s.link.outbound ++
          [{ type := 0x84, tag := tag,
             payload := [0x00, outcome, t.tracker.state.code, s.tracker.epoch] ++ put32 (BitVec.ofInt 32 t.tracker.q)
               ++ 1 :: put48 (BitVec.ofInt 48 err) }] } ∧
      (∀ i, t.lanes.get i =
        if s.tracker.candidate = none then s.lanes.get i else (s.lanes.get i).purge s.tracker.epoch none) ∧
      t = { s with
        strobe := { s.strobe with queue := newer }, tracker := t.tracker, link := t.link, lanes := t.lanes }

/-- R24, R27, R29, R31: a timing pair of the current epoch in ACQUIRING with acquire count 1 or more, later than the anchors. A candidate
held becomes absent, with a purge of every lane. With an error within Wacq, q takes the clamped sum with Δq by Kia (0 below 245,760
ticks), the anchors become the pair, and the acquire count rises: below Nacq the answer is ACQUIRED; at Nacq the state is LOCKED, LOCKED
is set and the answer is LOCKED. With a larger error the pair is a step: the anchors are set to it, the acquire count is 1 again and STEP
is set. Nothing else changes. -/
def Obligations.TsyncAcquires : Prop :=
  ∀ (tag seq : Byte) (house : Time) (older newer : List Capture) (e : Capture) (s : State) (d err dq : Int) (hp : Time),
    s.Ready → s.tracker.role = .follower → s.tracker.state = .acquiring → 1 ≤ s.tracker.acquireCount →
    s.strobe.queue = older ++ e :: newer → (∀ x ∈ older, x.seq ≠ seq) → e.seq = seq →
    d = (e.time - s.tracker.l0).toInt → 0 < d → s.tracker.house? e.time = some hp → err = (house - hp).toInt →
    dq = (if d < 245760 then 0
      else (2 * (err * 2 ^ 32) + d * 2 ^ s.tracker.settings.kia) / (2 * (d * 2 ^ s.tracker.settings.kia))) →
    ∃ (t : State) (flags outcome : Byte) (error : List Byte),
      exec (.tsync tag { seq := seq, epoch := s.tracker.epoch, house := house }) s = .next t ∧
      (err.natAbs ≤ s.tracker.settings.wacq → error = 1 :: put48 (BitVec.ofInt 48 err) ∧
        (s.tracker.acquireCount + 1 < s.tracker.settings.nacq →
          t.tracker = { s.tracker with
            candidate := none, q := max (-858993) (min 858993 (s.tracker.q + dq)), h0 := house, l0 := e.time,
            lastAccept := e.time, acquireCount := s.tracker.acquireCount + 1 } ∧ flags = 0 ∧ outcome = 1) ∧
        (s.tracker.settings.nacq ≤ s.tracker.acquireCount + 1 →
          t.tracker = { s.tracker with
            candidate := none, q := max (-858993) (min 858993 (s.tracker.q + dq)), h0 := house, l0 := e.time,
            lastAccept := e.time, acquireCount := s.tracker.acquireCount + 1, state := .locked, outlierRun := 0 } ∧
          flags = 0x80 ∧ outcome = 2)) ∧
      (s.tracker.settings.wacq < err.natAbs →
        t.tracker = { s.tracker with
          candidate := none, h0 := house, l0 := e.time, acquireCount := 1, outlierRun := 0, lastAccept := e.time } ∧
        flags = 0x08 ∧ outcome = 0 ∧ error = [0, 0, 0, 0, 0, 0, 0]) ∧
      t.link = { s.link with
        trackerFlags := s.link.trackerFlags ||| flags
        outbound := s.link.outbound ++
          [{ type := 0x84, tag := tag,
             payload := [0x00, outcome, t.tracker.state.code, s.tracker.epoch] ++ put32 (BitVec.ofInt 32 t.tracker.q)
               ++ error }] } ∧
      (∀ i, t.lanes.get i =
        if s.tracker.candidate = none then s.lanes.get i else (s.lanes.get i).purge s.tracker.epoch none) ∧
      t = { s with
        strobe := { s.strobe with queue := newer }, tracker := t.tracker, link := t.link, lanes := t.lanes }

/-- R23, R24, R25, R27, R29: the pairs that step the tracker without a staleness test. In UNLOCKED a pair's epoch is adopted, with EPOCH
and a purge where it differed. In FREERUN a pair of the current epoch steps, with UNLOCK; in ACQUIRING with acquire count 0 it steps
too; either makes a candidate absent, with a purge. In every state but UNLOCKED a pair of the candidate's epoch commits it, with EPOCH
and a purge, and UNLOCK out of LOCKED, HOLDOVER or FREERUN. A step sets the anchors to the pair, the state is ACQUIRING with acquire
count 1, and STEP is set. -/
def Obligations.TsyncSteps : Prop :=
  ∀ (tag seq epoch : Byte) (house : Time) (older newer : List Capture) (e : Capture) (s : State) (candidate : Option Byte)
    (changed unlock purged : Bool),
    s.Ready → s.tracker.role = .follower →
    s.strobe.queue = older ++ e :: newer → (∀ x ∈ older, x.seq ≠ seq) → e.seq = seq →
    ((s.tracker.state = .unlocked ∧ candidate = s.tracker.candidate ∧ changed = decide (epoch ≠ s.tracker.epoch) ∧
        unlock = false ∧ purged = changed) ∨
      (s.tracker.state = .freerun ∧ epoch = s.tracker.epoch ∧ candidate = none ∧ changed = false ∧ unlock = true ∧
        purged = s.tracker.candidate.isSome) ∨
      (s.tracker.state = .acquiring ∧ s.tracker.acquireCount = 0 ∧ epoch = s.tracker.epoch ∧ candidate = none ∧
        changed = false ∧ unlock = false ∧ purged = s.tracker.candidate.isSome) ∨
      (s.tracker.state ≠ .unlocked ∧ epoch ≠ s.tracker.epoch ∧ s.tracker.candidate = some epoch ∧ candidate = none ∧
        changed = true ∧ purged = true ∧
        unlock = decide (s.tracker.state = .locked ∨ s.tracker.state = .holdover ∨ s.tracker.state = .freerun))) →
    ∃ t, exec (.tsync tag { seq := seq, epoch := epoch, house := house }) s = .next t ∧
      t.tracker = { s.tracker with
        epoch := epoch, candidate := candidate, h0 := house, l0 := e.time, acquireCount := 1, outlierRun := 0,
        lastAccept := e.time, state := .acquiring } ∧
      t.strobe = { s.strobe with queue := newer } ∧
      t.link = { s.link with
        trackerFlags := s.link.trackerFlags ||| (if changed then 0x04 else 0) ||| 0x08 ||| (if unlock then 0x40 else 0)
        outbound := s.link.outbound ++
          [{ type := 0x84, tag := tag,
             payload := [0x00, 0, 1, epoch] ++ put32 (BitVec.ofInt 32 s.tracker.q) ++ [0, 0, 0, 0, 0, 0, 0] }] } ∧
      (∀ i, t.lanes.get i = if purged then (s.lanes.get i).purge epoch candidate else s.lanes.get i) ∧
      t = { s with tracker := t.tracker, strobe := t.strobe, link := t.link, lanes := t.lanes }

/-- R24, R26, R27: in every state but UNLOCKED a pair of an epoch that is neither the current one nor the candidate makes it the
candidate, and asks for a purge of every lane. The anchors, q, the state and the counters stay, no flag is set by the tracker, and the
answer is PENDING with no error. -/
def Obligations.TsyncHoldsACandidate : Prop :=
  ∀ (tag seq epoch : Byte) (house : Time) (older newer : List Capture) (e : Capture) (s : State),
    s.Ready → s.tracker.role = .follower → s.tracker.state ≠ .unlocked →
    s.strobe.queue = older ++ e :: newer → (∀ x ∈ older, x.seq ≠ seq) → e.seq = seq →
    epoch ≠ s.tracker.epoch → s.tracker.candidate ≠ some epoch →
    ∃ t, exec (.tsync tag { seq := seq, epoch := epoch, house := house }) s = .next t ∧
      t.link = { s.link with outbound := s.link.outbound ++
        [{ type := 0x84, tag := tag,
           payload := [0x00, 5, s.tracker.state.code, s.tracker.epoch] ++ put32 (BitVec.ofInt 32 s.tracker.q)
             ++ [0, 0, 0, 0, 0, 0, 0] }] } ∧
      (∀ i, t.lanes.get i = (s.lanes.get i).purge s.tracker.epoch (some epoch)) ∧
      t = { s with
        tracker := { s.tracker with candidate := some epoch }
        strobe := { s.strobe with queue := newer }
        link := t.link
        lanes := t.lanes }

/-- R21, R22: a TSYNC to the REFERENCE role is refused with E_ROLE and changes nothing; one that names a capture not in the queue is
refused with E_NOCAP and changes nothing. R24, R27, R28: a pair of the current epoch that is not later than the anchors, in ACQUIRING with
acquire count 1 or more, LOCKED or HOLDOVER, is refused with E_STALE: the capture and the older ones are gone, the stale counter rises, a
candidate held becomes absent, with a purge of every lane, and nothing else changes. -/
def Obligations.TsyncRefused : Prop :=
  ∀ (tag : Byte) (r : TsyncReq) (s : State), s.Ready →
    (s.tracker.role = .reference →
      exec (.tsync tag r) s = .next (s.postAnswer { type := 0x84, tag := tag, payload := [0x20] })) ∧
    (s.tracker.role = .follower → (∀ x ∈ s.strobe.queue, x.seq ≠ r.seq) →
      exec (.tsync tag r) s = .next (s.postAnswer { type := 0x84, tag := tag, payload := [0x21] })) ∧
    (∀ (older newer : List Capture) (e : Capture), s.tracker.role = .follower →
      ((s.tracker.state = .acquiring ∧ 1 ≤ s.tracker.acquireCount) ∨ s.tracker.state = .locked ∨
        s.tracker.state = .holdover) →
      s.strobe.queue = older ++ e :: newer → (∀ x ∈ older, x.seq ≠ r.seq) → e.seq = r.seq → r.epoch = s.tracker.epoch →
      (e.time - s.tracker.l0).toInt ≤ 0 →
      ∃ t, exec (.tsync tag r) s = .next t ∧
        (∀ i, t.lanes.get i =
          if s.tracker.candidate = none then s.lanes.get i else (s.lanes.get i).purge s.tracker.epoch none) ∧
        t = { s with
          strobe := { s.strobe with queue := newer }
          tracker := { s.tracker with candidate := none, stale := min (s.tracker.stale + 1) 65535 }
          lanes := t.lanes }.postAnswer { type := 0x84, tag := tag, payload := [0x22] })

/-! ## Lanes, streams and frames -/

/-- R47, R49, R51, R70: an LCFG that passes enables a lane in OFF. The configuration is stored with every clamp of R49, the lane is
STOPPED, empty and unbound with its counters 0, its pending cue actions and flags stay, and the answer is ADJUSTED exactly when a value
was clamped. Nothing else changes. -/
def Obligations.LcfgEnablesAnOffLane : Prop :=
  ∀ (tag : Byte) (r : LcfgReq) (i : LaneId) (dir : Direction) (pol : SyncPolicy) (s : State), s.Ready →
    r.lane.toNat = i.num → r.enable = 1 → dir.code = r.direction → pol.code = r.policy →
    (r.channels = 1 ∨ r.channels = 2) → 1 ≤ r.quota.toNat → r.firstPage.toNat ≤ r.lastPage.toNat →
    (s.lanes.get i).state = .off →
    (∀ j, j ≠ i → (s.lanes.get j).state ≠ .off →
      (r.lastPage.toNat < (s.lanes.get j).config.firstPage.toNat ∨ (s.lanes.get j).config.lastPage.toNat < r.firstPage.toNat) ∧
      (dir = .capture → (s.lanes.get j).config.direction ≠ .capture)) →
    r.quota.toNat + ((LaneId.list.filter (fun j => j != i && (s.lanes.get j).enabled)).map
      (fun j => (s.lanes.get j).config.quota)).sum ≤ 128 →
    ∃ (cap low : Nat) (l : Lane) (code : Byte),
      cap = (r.lastPage.toNat - r.firstPage.toNat + 1) * 1024 / r.channels.toNat ∧ low = min r.low.toNat cap ∧
      l = { Lane.reset with
        config :=
          { direction := dir, firstPage := r.firstPage, lastPage := r.lastPage, quota := r.quota.toNat,
            channels := r.channels.toNat, policy := pol, leadLimit := max 24576 (min 1474560000 r.leadLimit.toNat),
            low := low, high := max low (min r.high.toNat cap),
            roomOffset := max (-1048576) (min 1048575 r.roomOffset.toInt), gs := max 6 (min 14 r.gs.toNat),
            trimMax := min r.trimMax.toNat 13421, slipLimit := max 512 (min 1048575 r.slipLimit.toNat),
            frameSize := max 64 (min 1024 (r.frameSize.toNat / 64 * 64)),
            dataMark := max 1 (min r.quota.toNat r.dataMark.toNat), inputLatency := r.inputLatency.toNat }
        state := .stopped
        actions := (s.lanes.get i).actions
        flags := (s.lanes.get i).flags } ∧
      code = (if l.config.leadLimit = r.leadLimit.toNat ∧ l.config.low = r.low.toNat ∧ l.config.high = r.high.toNat ∧
          l.config.roomOffset = r.roomOffset.toInt ∧ l.config.gs = r.gs.toNat ∧ l.config.trimMax = r.trimMax.toNat ∧
          l.config.slipLimit = r.slipLimit.toNat ∧ l.config.frameSize = r.frameSize.toNat ∧
          l.config.dataMark = r.dataMark.toNat then 0x00 else 0x01) ∧
      exec (.lcfg tag r) s = .next ({ s with lanes := s.lanes.set i l }.postAnswer
        { type := 0x90, tag := tag, payload := code :: (configFields i l ++ [0x01]) })

/-- R47 to R52: an LCFG whose codes and numbers fail check 1 is refused with E_RANGE. Otherwise c is the carried configuration with every
clamp of R49, and the checks follow in their order: E_STATE where the change is not permitted in the lane's state (R48: in OFF every one
is; in STOPPED direction and pages stay, and the channels while a frame is held; in an active state enable is on and only room offset,
Gs, trim max, slip limit, the watermarks, lead limit and input latency move); on enabling from OFF, E_OVERLAP where another enabled
lane has one of the pages, and E_BOUND for a second CAPTURE lane; E_QUOTA where the quotas of the enabled lanes would pass 128, or an
enabled lane holds more records than the carried quota (made on disabling too: the model's reading, log 23). A refused LCFG changes
nothing. One that passes enables the lane (LcfgEnablesAnOffLane); disables it, from STOPPED with enable off: every record and allocation
is released, the offsets, the binding, the playout context and the frame being filled go, and its pending cue actions, counters, flags,
run number and last sequence stay; or stores c in a lane that else stays as it is, OFF, STOPPED or active. It is ADJUSTED exactly when a
value was clamped. -/
def Obligations.LcfgChecksAndStores : Prop :=
  ∀ (tag : Byte) (r : LcfgReq) (s : State), s.Ready →
    ((5 < r.lane.toNat ∨ 1 < r.enable.toNat ∨ 1 < r.direction.toNat ∨ 1 < r.policy.toNat ∨ (r.channels ≠ 1 ∧ r.channels ≠ 2) ∨
        r.quota = 0 ∨ 128 < r.quota.toNat ∨ r.lastPage.toNat < r.firstPage.toNat) →
      exec (.lcfg tag r) s = .next (s.postAnswer { type := 0x90, tag := tag, payload := [0x12] })) ∧
    (∀ (i : LaneId) (l k : Lane) (en : Bool) (dir : Direction) (pol : SyncPolicy) (cap low others : Nat) (c : LaneConfig)
        (code : Byte) (permitted enabling overlap twin excess : Prop),
      r.lane.toNat = i.num → l = s.lanes.get i → r.enable = (if en then 1 else 0) → dir.code = r.direction → pol.code = r.policy →
      (r.channels = 1 ∨ r.channels = 2) → 1 ≤ r.quota.toNat → r.quota.toNat ≤ 128 → r.firstPage.toNat ≤ r.lastPage.toNat →
      cap = (r.lastPage.toNat - r.firstPage.toNat + 1) * 1024 / r.channels.toNat → low = min r.low.toNat cap →
      c =
        { direction := dir, firstPage := r.firstPage, lastPage := r.lastPage, quota := r.quota.toNat,
          channels := r.channels.toNat, policy := pol, leadLimit := max 24576 (min 1474560000 r.leadLimit.toNat),
          low := low, high := max low (min r.high.toNat cap),
          roomOffset := max (-1048576) (min 1048575 r.roomOffset.toInt), gs := max 6 (min 14 r.gs.toNat),
          trimMax := min r.trimMax.toNat 13421, slipLimit := max 512 (min 1048575 r.slipLimit.toNat),
          frameSize := max 64 (min 1024 (r.frameSize.toNat / 64 * 64)),
          dataMark := max 1 (min r.quota.toNat r.dataMark.toNat), inputLatency := r.inputLatency.toNat } →
      code = (if c.leadLimit = r.leadLimit.toNat ∧ c.low = r.low.toNat ∧ c.high = r.high.toNat ∧
          c.roomOffset = r.roomOffset.toInt ∧ c.gs = r.gs.toNat ∧ c.trimMax = r.trimMax.toNat ∧
          c.slipLimit = r.slipLimit.toNat ∧ c.frameSize = r.frameSize.toNat ∧ c.dataMark = r.dataMark.toNat
        then 0x00 else 0x01) →
      others = ((LaneId.list.filter (fun j => j != i && (s.lanes.get j).enabled)).map
        (fun j => (s.lanes.get j).config.quota)).sum →
      (permitted ↔ l.state = .off ∨
        (l.state = .stopped ∧ dir = l.config.direction ∧ r.firstPage = l.config.firstPage ∧ r.lastPage = l.config.lastPage ∧
          (r.channels.toNat = l.config.channels ∨ l.held = 0)) ∨
        (l.state ≠ .off ∧ l.state ≠ .stopped ∧ en = true ∧
          c = { l.config with
            roomOffset := c.roomOffset, gs := c.gs, trimMax := c.trimMax, slipLimit := c.slipLimit, low := c.low,
            high := c.high, leadLimit := c.leadLimit, inputLatency := c.inputLatency })) →
      (enabling ↔ en = true ∧ l.state = .off) →
      (overlap ↔ ∃ j, j ≠ i ∧ (s.lanes.get j).state ≠ .off ∧
        r.firstPage.toNat ≤ (s.lanes.get j).config.lastPage.toNat ∧ (s.lanes.get j).config.firstPage.toNat ≤ r.lastPage.toNat) →
      (twin ↔ dir = .capture ∧ ∃ j, j ≠ i ∧ (s.lanes.get j).state ≠ .off ∧ (s.lanes.get j).config.direction = .capture) →
      (excess ↔ ((enabling ∨ l.state ≠ .off) ∧ 128 < r.quota.toNat + others) ∨ (l.state ≠ .off ∧ r.quota.toNat < l.held)) →
      (∀ x : Byte,
        ((¬ permitted ∧ x = 0x13) ∨ (permitted ∧ enabling ∧ overlap ∧ x = 0x3A) ∨
          (permitted ∧ enabling ∧ ¬ overlap ∧ twin ∧ x = 0x31) ∨
          (permitted ∧ ¬ (enabling ∧ (overlap ∨ twin)) ∧ excess ∧ x = 0x38)) →
        exec (.lcfg tag r) s = .next (s.postAnswer { type := 0x90, tag := tag, payload := [x] })) ∧
      (permitted → ¬ (enabling ∧ (overlap ∨ twin)) → ¬ excess →
        ((enabling ∧
            k = { Lane.reset with config := c, state := .stopped, actions := l.actions, flags := l.flags }) ∨
          (en = false ∧ l.state = .stopped ∧
            k = { l with
              config := c, state := .off, writeOffset := 0, reclaimOffset := 0, allocs := [], queue := [], filling := none,
              current := none, switch := none, cursor := none, aim := .absent, halt := none }) ∨
          (¬ enabling ∧ ¬ (en = false ∧ l.state = .stopped) ∧ k = { l with config := c })) →
        exec (.lcfg tag r) s = .next ({ s with lanes := s.lanes.set i k }.postAnswer
          { type := 0x90, tag := tag, payload := code :: (configFields i k ++ [k.state.code]) })))

/-- R56, R71: when a record is released, its allocation is marked released, and then the oldest allocations that are marked leave the
ring, one after another: the reclaim offset advances by their lengths, modulo the region's size, and a hole behind an allocation still
in use stays. When several records are released together, every one's allocation is marked before what is free at the oldest end is
counted. The records leave the queue, the others keep their order, and a cursor whose PLAYING frame is among them goes; nothing else of
the lane changes. A capture frame that is given up while it is being filled leaves the lane, with its allocation released in the same
way, and raises the discards counter (R156, R158, R164; R71's table names no counter: log 31). Its premise, that the oldest allocation
is not yet marked, is part of the law of the ring (RingAndStateLawsAreKept). -/
def Obligations.ReleaseMarksAndReclaims : Prop :=
  ∀ (l : Lane), l.reclaimOffset < l.config.regionSize → (∀ a, l.allocs.head? = some a → a.released = false) →
    (∀ (p : FrameRecord → Bool) (marked : List Alloc),
      marked = l.allocs.map (fun a =>
        if ∃ f ∈ l.queue, p f = true ∧ f.offset = a.start then { a with released := true } else a) →
      l.releaseWhere p = { l with
        queue := l.queue.filter (fun f => !p f)
        allocs := marked.dropWhile Alloc.released
        reclaimOffset :=
          (l.reclaimOffset + ((marked.takeWhile Alloc.released).map Alloc.len).sum) % l.config.regionSize
        cursor := if ∃ f ∈ l.queue, p f = true ∧ f.status = .playing then none else l.cursor }) ∧
    (∀ (f : FrameRecord) (rest : List FrameRecord) (marked : List Alloc), l.queue = f :: rest →
      marked = l.allocs.map (fun a => if f.offset = a.start then { a with released := true } else a) →
      l.releaseHead = { l with
        queue := rest
        allocs := marked.dropWhile Alloc.released
        reclaimOffset :=
          (l.reclaimOffset + ((marked.takeWhile Alloc.released).map Alloc.len).sum) % l.config.regionSize
        cursor := if f.status = .playing then none else l.cursor }) ∧
    (∀ (f : Filling) (marked : List Alloc), l.filling = some f →
      marked = l.allocs.map (fun a => if f.record.offset = a.start then { a with released := true } else a) →
      l.discardFilling = { l with
        filling := none
        allocs := marked.dropWhile Alloc.released
        reclaimOffset :=
          (l.reclaimOffset + ((marked.takeWhile Alloc.released).map Alloc.len).sum) % l.config.regionSize
        captureCounters := { l.captureCounters with discards := min (l.captureCounters.discards + 1) 65535 } })

/-- R63, R64: an LBIND without a switch time, in STOPPED or DRAINED, binds the carried stream or none. A pending switch is discarded, and
the frames of the streams that are bound no longer are released by R71; a frame of the carried stream stays. The watermark flags follow
R60. Nothing else changes but the answer. R63: the refusals of every LBIND, with a switch time or without, in the order of its checks.
E_RANGE: a lane number above 5, a presence byte that is neither 0 nor 1, or a switch time with no stream. E_STATE: the lane is OFF or a
CAPTURE lane. E_BOUND: the stream is current or pending on another lane, or, with a switch time, current on this one. E_STATE: without a
switch time, the lane is neither STOPPED nor DRAINED. A refused LBIND changes nothing but the answer. -/
def Obligations.LbindChecksAndBinds : Prop :=
  (∀ (tag : Byte) (r : LbindReq) (i : LaneId) (named : Option StreamId) (s : State), s.Ready →
    r.lane.toNat = i.num → r.timeP = 0 →
    ((r.streamP = 0 ∧ named = none) ∨ (r.streamP = 1 ∧ named = some r.stream)) →
    (s.lanes.get i).config.direction = .play → ((s.lanes.get i).state = .stopped ∨ (s.lanes.get i).state = .drained) →
    (∀ st, named = some st → ∀ j, j ≠ i → (s.lanes.get j).current ≠ some st ∧
      ∀ sw, (s.lanes.get j).switch = some sw → sw.stream ≠ st) →
    ∃ l m k : Lane,
      m = (s.lanes.get i).releaseWhere (fun f =>
        decide ((s.lanes.get i).switch.map Switch.stream = some f.stream) && decide (named ≠ some f.stream)) ∧
      k = m.releaseWhere (fun f => decide ((s.lanes.get i).current = some f.stream) && decide (named ≠ some f.stream)) ∧
      l = { s.lanes.get i with
        current := named, switch := none, queue := k.queue, allocs := k.allocs, reclaimOffset := k.reclaimOffset,
        cursor := k.cursor,
        flags := (s.lanes.get i).flags
          ||| (if (s.lanes.get i).config.low ≤ (s.lanes.get i).buffered ∧ k.buffered < (s.lanes.get i).config.low then 0x10
            else 0)
          ||| (if (s.lanes.get i).buffered ≤ (s.lanes.get i).config.high ∧ (s.lanes.get i).config.high < k.buffered then 0x08
            else 0) } ∧
      l.queue = (s.lanes.get i).queue.filter (fun f =>
        decide (named = some f.stream) ||
          (decide ((s.lanes.get i).current ≠ some f.stream) &&
            decide ((s.lanes.get i).switch.map Switch.stream ≠ some f.stream))) ∧
      exec (.lbind tag r) s = .next ({ s with lanes := s.lanes.set i l }.postAnswer
        { type := 0x91, tag := tag,
          payload := 0x00 :: r.lane :: ((match named with
              | none => [0, 0, 0]
              | some st => 1 :: put16 st)
            ++ [0, 0, 0, 0, 0, 0, 0, 0, 0] ++ BitVec.ofNat 8 l.held :: put32 (BitVec.ofNat 32 l.buffered)) })) ∧
  (∀ (tag : Byte) (r : LbindReq) (s : State) (refused : Byte → Prop), s.Ready →
    (∀ x, refused x ↔ exec (.lbind tag r) s = .next (s.postAnswer { type := 0x91, tag := tag, payload := [x] })) →
    ((5 < r.lane.toNat ∨ 1 < r.streamP.toNat ∨ 1 < r.timeP.toNat ∨ (r.streamP = 0 ∧ r.timeP = 1)) → refused 0x12) ∧
    (∀ (i : LaneId) (l : Lane) (taken : Prop), r.lane.toNat = i.num → l = s.lanes.get i →
      (r.timeP = 0 ∧ (r.streamP = 0 ∨ r.streamP = 1) ∨ r.timeP = 1 ∧ r.streamP = 1) →
      (taken ↔ r.streamP = 1 ∧ ((∃ j, j ≠ i ∧ ((s.lanes.get j).current = some r.stream ∨
          ∃ sw, (s.lanes.get j).switch = some sw ∧ sw.stream = r.stream)) ∨
        (r.timeP = 1 ∧ l.current = some r.stream))) →
      ((l.state = .off ∨ l.config.direction = .capture) → refused 0x13) ∧
      (l.state ≠ .off → l.config.direction = .play → taken → refused 0x31) ∧
      (l.state ≠ .off → l.config.direction = .play → ¬ taken → r.timeP = 0 → l.state ≠ .stopped → l.state ≠ .drained →
        refused 0x13)))

/-- R63, R65, R66: an LBIND with a switch time T, on an enabled PLAY lane in any state, sets a pending switch. First the frames of a
pending switch to another stream are released, or, for the same stream, those earlier than the new T; then, where the lane's late point is
not earlier than T, the switch commits at once and the old current stream's QUEUED frames are released; otherwise its QUEUED frames at or
after T are. Released frames go by R71 (ReleaseMarksAndReclaims). The watermark flags follow R60 across the whole request. Nothing else
changes but the answer. That a lane whose PLAYING frame step 1 releases keeps its state is the model's choice (log 30). -/
def Obligations.LbindSetsASwitch : Prop :=
  ∀ (tag : Byte) (r : LbindReq) (i : LaneId) (s : State) (due : Bool) (l m k : Lane), s.Ready →
    r.lane.toNat = i.num → r.streamP = 1 → r.timeP = 1 → (s.lanes.get i).config.direction = .play →
    (s.lanes.get i).state ≠ .off → (s.lanes.get i).current ≠ some r.stream →
    (∀ j, j ≠ i → (s.lanes.get j).current ≠ some r.stream ∧
      ∀ sw, (s.lanes.get j).switch = some sw → sw.stream ≠ r.stream) →
    m = { (s.lanes.get i).releaseWhere (fun f => match (s.lanes.get i).switch with
        | none => false
        | some old => decide (f.stream = old.stream) &&
            (decide (old.stream ≠ r.stream) || decide ((f.time - r.time).toInt < 0))) with
      switch := some { stream := r.stream, time := r.time } } →
    (due = true ↔ ∃ p, s.latePoint? m = some p ∧ 0 ≤ (p - r.time).toInt) →
    k = m.releaseWhere (fun f => decide (f.status = .queued) && decide (m.current = some f.stream) &&
      (due || decide (0 ≤ (f.time - r.time).toInt))) →
    l = { k with
      current := if due then some r.stream else m.current
      switch := if due then none else m.switch
      flags := (s.lanes.get i).flags
        ||| (if (s.lanes.get i).config.low ≤ (s.lanes.get i).buffered ∧ k.buffered < (s.lanes.get i).config.low then 0x10
          else 0)
        ||| (if (s.lanes.get i).buffered ≤ (s.lanes.get i).config.high ∧ (s.lanes.get i).config.high < k.buffered then 0x08
          else 0) } →
    exec (.lbind tag r) s = .next ({ s with lanes := s.lanes.set i l }.postAnswer
      { type := 0x91, tag := tag,
        payload := 0x00 :: r.lane ::
          ((match l.current with
            | none => [0, 0, 0]
            | some st => 1 :: put16 st)
          ++ (match l.switch with
            | none => [0, 0, 0, 0, 0, 0, 0, 0, 0]
            | some sw => 1 :: (put16 sw.stream ++ put48 sw.time))
          ++ BitVec.ofNat 8 l.held :: put32 (BitVec.ofNat 32 l.buffered)) })

/-- R66, R74: a pending switch of an enabled PLAY lane, in any state, commits at a boundary whose target is not earlier than T: the
pending stream becomes current and the old one's QUEUED frames are released. The lane then does the boundary's work as one that was
bound so, but that its watermark check starts from the count before the commit; in STOPPED and DRAINED nothing else of it changes. With
an earlier target, or none, a lane in STOPPED or DRAINED stays as it is. An LFRAME finds the lane after a commit that its late point
makes due. It is then refused with E_SWITCH when it is of the pending stream and earlier than T, of the current one and not earlier than
T, or of a stream that the commit left unbound; nothing else changes but that commit. -/
def Obligations.SwitchCommitsAndWindow : Prop :=
  (∀ (env : BoundaryEnv) (l m : Lane) (sw : Switch),
    l.config.direction = .play → l.state ≠ .off → l.actions = [] → l.switch = some sw →
    m = { l.releaseWhere (fun f => decide (f.status = .queued) && decide (l.current = some f.stream)) with
      current := some sw.stream
      switch := none } →
    (∀ p, env.target l = some p → 0 ≤ (p - sw.time).toInt →
      (∃ w : Lane, (m.boundaryWork env).lane = w.watermark m.buffered ∧ (l.boundaryWork env).lane = w.watermark l.buffered) ∧
      (l.boundaryWork env).block = (m.boundaryWork env).block ∧
      ((l.state = .stopped ∨ l.state = .drained) → (l.boundaryWork env).lane = { m with
        flags := l.flags ||| (if l.config.low ≤ l.buffered ∧ m.buffered < l.config.low then 0x10 else 0)
          ||| (if l.buffered ≤ l.config.high ∧ l.config.high < m.buffered then 0x08 else 0) })) ∧
    ((l.state = .stopped ∨ l.state = .drained) → (∀ p, env.target l = some p → (p - sw.time).toInt < 0) →
      (l.boundaryWork env).lane = l)) ∧
  (∀ (tag : Byte) (r : LframeReq) (i : LaneId) (s : State) (sw : Switch) (due : Bool) (l m : Lane), s.Ready →
    (r.width = 16 ∨ r.width = 24) → (r.channels = 1 ∨ r.channels = 2) → 1 ≤ r.samples.toNat → r.samples.toNat ≤ 1024 →
    r.payload.length = r.samples.toNat * r.channels.toNat * (if r.width = 16 then 2 else 3) →
    r.marks &&& 0xFC = 0 → (r.tagP = 0 ∨ r.tagP = 1) → (s.lanes.get i).isPlay = true →
    ((s.lanes.get i).current = some r.stream ∨ sw.stream = r.stream) → (s.lanes.get i).switch = some sw →
    (∀ j, j ≠ i → (s.lanes.get j).isPlay = true → (s.lanes.get j).bound r.stream = false) →
    r.channels.toNat = (s.lanes.get i).config.channels →
    (due = true ↔ ∃ p, s.latePoint? (s.lanes.get i) = some p ∧ 0 ≤ (p - sw.time).toInt) →
    m = (s.lanes.get i).releaseWhere (fun f =>
      decide (f.status = .queued) && decide ((s.lanes.get i).current = some f.stream)) →
    l = (if due then { m with
        current := some sw.stream
        switch := none
        flags := (s.lanes.get i).flags
          ||| (if (s.lanes.get i).config.low ≤ (s.lanes.get i).buffered ∧ m.buffered < (s.lanes.get i).config.low then 0x10
            else 0)
          ||| (if (s.lanes.get i).buffered ≤ (s.lanes.get i).config.high ∧ (s.lanes.get i).config.high < m.buffered then 0x08
            else 0) }
      else s.lanes.get i) →
    ((due = true ∧ sw.stream ≠ r.stream) ∨ (due = false ∧ sw.stream = r.stream ∧ (r.pts - sw.time).toInt < 0) ∨
      (due = false ∧ sw.stream ≠ r.stream ∧ 0 ≤ (r.pts - sw.time).toInt)) →
    exec (.lframe tag r) s = .next ({ s with lanes := s.lanes.set i l }.postAnswer
      { type := 0x92, tag := tag, payload := [0x32] }))

/-- R55, R60, R62, R66, R72 to R77: an LFRAME's checks in their order. E_LEN: its payload is not of the length its samples, channels and
width give (a width that is neither 16 nor 24 gives none: log 14). E_RANGE: samples, channels, width, marks or tag presence out of range.
E_NOLANE: its stream is neither current nor pending on an enabled PLAY lane. E_RANGE: its channels are not the lane's. Then a pending
switch that the lane's late point makes due commits, with the watermark flags of R60, and stays committed whatever follows. E_SWITCH: the
frame is outside the switch window. E_EPOCH: its epoch is neither the tracker's nor the candidate. E_LATE: it ends at the late point or
before. E_EARLY: its pts is beyond the lead limit. E_DUP: its stream and sequence are queued. E_ORDER: its pts is a queued frame's, or
before the PLAYING one's. E_QUOTA: the quota is full. E_ROOM: the ring has too little space. A refusal changes nothing but that commit. A
frame that passes every check is admitted: the allocation is made at the write offset, every sample stands in its word (16-bit samples
multiplied by 256) and every other word of the store is as it was. The record is QUEUED with the carried fields, behind the last record
whose pts is earlier. The watermark flags follow R60. Nothing else changes but the answer. The admission's premise is the law of the store
(StoreLawIsKept). R75, R78: the late point of a PLAYING or HELD lane is the content time of its cursor, that of a BRIDGING one its aim, a
realign time or the head's pts, and that of every other the target of the next block, H(B + 33,280 + SPA's latency) less the room offset,
with B the first boundary not yet taken (log 11). That target is also the one of a lane whose cursor or aim frame is gone (after step 1
of R65: log 30; BRIDGING: log 36). In UNLOCKED there is none. -/
def Obligations.LframeChecksAndAdmits : Prop :=
  ∀ (tag : Byte) (r : LframeReq) (s : State) (length fields : Prop) (refused : Byte → Prop), s.Ready →
    (length ↔ ((r.width = 16 ∨ r.width = 24) →
      r.payload.length = r.samples.toNat * r.channels.toNat * (if r.width = 16 then 2 else 3))) →
    (fields ↔ (r.width = 16 ∨ r.width = 24) ∧ (r.channels = 1 ∨ r.channels = 2) ∧ 1 ≤ r.samples.toNat ∧
      r.samples.toNat ≤ 1024 ∧ r.marks &&& 0xFC = 0 ∧ (r.tagP = 0 ∨ r.tagP = 1)) →
    (∀ x, refused x ↔ exec (.lframe tag r) s = .next (s.postAnswer { type := 0x92, tag := tag, payload := [x] })) →
    (¬ length → refused 0x10) ∧ (length → ¬ fields → refused 0x12) ∧
    (length → fields → (∀ i, (s.lanes.get i).isPlay = true → (s.lanes.get i).bound r.stream = false) → refused 0x30) ∧
    (∀ i : LaneId, length → fields → (s.lanes.get i).isPlay = true → (s.lanes.get i).bound r.stream = true →
      (∀ j, j ≠ i → (s.lanes.get j).isPlay = true → (s.lanes.get j).bound r.stream = false) →
      (r.channels.toNat ≠ (s.lanes.get i).config.channels → refused 0x12) ∧
      (∀ (o l : Lane) (window known late early twice misplaced full crowded : Prop),
        r.channels.toNat = (s.lanes.get i).config.channels → o = s.lanes.get i →
        ((l = o ∧ ∀ sw p, o.switch = some sw → s.latePoint? o = some p → (p - sw.time).toInt < 0) ∨
          (∃ sw p m, o.switch = some sw ∧ s.latePoint? o = some p ∧ 0 ≤ (p - sw.time).toInt ∧
            m = o.releaseWhere (fun f => decide (f.status = .queued) && decide (o.current = some f.stream)) ∧
            l = { m with
              current := some sw.stream
              switch := none
              flags := o.flags ||| (if o.config.low ≤ o.buffered ∧ m.buffered < o.config.low then 0x10 else 0)
                ||| (if o.buffered ≤ o.config.high ∧ o.config.high < m.buffered then 0x08 else 0) })) →
        (window ↔ (l.switch = none ∧ l.current = some r.stream) ∨
          ∃ sw, l.switch = some sw ∧ ((sw.stream = r.stream ∧ 0 ≤ (r.pts - sw.time).toInt) ∨
            (sw.stream ≠ r.stream ∧ l.current = some r.stream ∧ (r.pts - sw.time).toInt < 0))) →
        (known ↔ r.epoch = s.tracker.epoch ∨ s.tracker.candidate = some r.epoch) →
        (late ↔ ∃ p, s.latePoint? l = some p ∧ (r.pts + BitVec.ofNat 48 (512 * r.samples.toNat) - p).toInt ≤ 0) →
        (early ↔ ∃ h, s.tracker.house? s.count = some h ∧ (l.config.leadLimit : Int) < (r.pts - h).toInt) →
        (twice ↔ ∃ f ∈ l.queue, f.stream = r.stream ∧ f.seq = r.seq) →
        (misplaced ↔ ∃ f ∈ l.queue, f.time = r.pts ∨ (f.status = .playing ∧ (r.pts - f.time).toInt < 0)) →
        (full ↔ l.config.quota ≤ l.queue.length) →
        (crowded ↔ l.config.regionSize < l.fill + r.samples.toNat * r.channels.toNat) →
        (∀ x : Byte,
          ((¬ window ∧ x = 0x32) ∨ (window ∧ ((¬ known ∧ x = 0x33) ∨ (known ∧ ((late ∧ x = 0x34) ∨
            (¬ late ∧ ((early ∧ x = 0x35) ∨ (¬ early ∧ ((twice ∧ x = 0x36) ∨ (¬ twice ∧ ((misplaced ∧ x = 0x37) ∨
            (¬ misplaced ∧ ((full ∧ x = 0x38) ∨ (¬ full ∧ crowded ∧ x = 0x39)))))))))))))) →
          exec (.lframe tag r) s = .next ({ s with lanes := s.lanes.set i l }.postAnswer
            { type := 0x92, tag := tag, payload := [x] })) ∧
        (window → known → ¬ late → ¬ early → ¬ twice → ¬ misplaced → ¬ full → ¬ crowded → s.StoreLaw →
          ∃ (k : Lane) (before after : List FrameRecord) (store : Memory) (words wo : Nat),
            words = r.samples.toNat * r.channels.toNat ∧ wo = l.writeOffset ∧
            k.queue = before ++
              { status := .queued, stream := r.stream, seq := r.seq, epoch := r.epoch, pts := some r.pts,
                samples := r.samples.toNat, channels := r.channels.toNat, offset := wo, disc := r.marks.getLsbD 0,
                endMark := r.marks.getLsbD 1, tag := if r.tagP = 0 then none else some r.cueTag } :: after ∧
            l.queue = before ++ after ∧ (∀ f, before.getLast? = some f → (f.time - r.pts).toInt < 0) ∧
            (∀ f ∈ after, 0 ≤ (f.time - r.pts).toInt) ∧
            k = { l with
              writeOffset := (wo + words) % l.config.regionSize
              allocs := l.allocs ++ [{ start := wo, len := words, released := false }]
              queue := k.queue
              flags := l.flags ||| (if l.config.low ≤ l.buffered ∧ k.buffered < l.config.low then 0x10 else 0)
                ||| (if l.buffered ≤ l.config.high ∧ l.config.high < k.buffered then 0x08 else 0) } ∧
            (∀ n, n < words → store.read (l.config.wordAt (wo + n)) = BitVec.ofInt 32
              (if r.width = 16 then (r.payload.getD (2 * n) 0 ++ r.payload.getD (2 * n + 1) 0).toInt * 256
                else (r.payload.getD (3 * n) 0 ++ (r.payload.getD (3 * n + 1) 0 ++ r.payload.getD (3 * n + 2) 0)).toInt)) ∧
            (∀ a, (∀ n, n < words → a ≠ l.config.wordAt (wo + n)) → store.read a = s.store.read a) ∧
            exec (.lframe tag r) s = .next ({ s with lanes := s.lanes.set i k, store := store }.postAnswer
              { type := 0x92, tag := tag,
                payload := 0x00 :: BitVec.ofNat 8 i.num :: BitVec.ofNat 8 k.held :: put32 (BitVec.ofNat 32 k.buffered) })))) ∧
    (s.tracker.state = .unlocked → ∀ l : Lane, s.latePoint? l = none) ∧
    (∀ (l : Lane) (next house target : Time),
      next = BitVec.ofNat 48 (32768 * (s.count.toNat / 32768 + (if s.boundaryDue then 0 else 1))) →
      s.tracker.house? (next + BitVec.ofNat 48 (33280 + s.ports.spa.latency)) = some house →
      target = house - BitVec.ofInt 48 l.config.roomOffset →
      ((l.state = .playing ∨ l.state = .held) →
        (l.cursor = none → s.latePoint? l = some target) ∧
        (∀ c f rest, l.cursor = some c → l.queue = f :: rest →
          s.latePoint? l = some (f.time + BitVec.ofNat 48 (512 * c.index + c.frac / 2 ^ 15)))) ∧
      (l.state = .bridging →
        (∀ t, l.aim = .time t → s.latePoint? l = some t) ∧
        (∀ f rest, l.aim = .frame → l.queue = f :: rest → s.latePoint? l = some f.time) ∧
        (l.aim = .frame → l.queue = [] → s.latePoint? l = some target)) ∧
      (l.state ≠ .playing → l.state ≠ .held → l.state ≠ .bridging → s.latePoint? l = some target))

/-- R85, R157, R153: LGO makes a PLAY lane in STOPPED or DRAINED ARMED with aim FRAME, and starts a CAPTURE lane in STOPPED whose region
holds one frame: RUNNING, run number advanced, entry time the present count, discontinuity pending; SPC then watches its clock where it is
enabled in SLAVE mode. In every other state it is refused with E_STATE. A lane number above 5, and a CAPTURE lane in STOPPED whose region
is too small for one frame, are refused with E_RANGE. -/
def Obligations.LgoStartsALane : Prop :=
  ∀ (tag n : Byte) (s : State), s.Ready →
    (5 < n.toNat → exec (.lgo tag n) s = .next (s.postAnswer { type := 0x93, tag := tag, payload := [0x12] })) ∧
    ∀ i : LaneId, n.toNat = i.num →
    ((s.lanes.get i).config.direction = .play → ((s.lanes.get i).state = .stopped ∨ (s.lanes.get i).state = .drained) →
      exec (.lgo tag n) s = .next
        ({ s with lanes := s.lanes.set i { s.lanes.get i with state := .armed, aim := .frame } }.postAnswer
          { type := 0x93, tag := tag, payload := [0x00, n, 2, 0, 0] })) ∧
    ((s.lanes.get i).config.direction = .capture → (s.lanes.get i).state = .stopped →
      (s.lanes.get i).config.frameSize * (s.lanes.get i).config.channels ≤ (s.lanes.get i).config.regionSize →
      exec (.lgo tag n) s = .next
        ({ s with
            lanes := s.lanes.set i { s.lanes.get i with
              state := .running, runNumber := (s.lanes.get i).runNumber + 1, entryTime := some s.count, discPending := true }
            spc := { s.spc with
              watch := if s.spc.inForce.enable = true ∧ s.spc.modeInForce = ClockMode.slave then .watching s.count else .idle } }.postAnswer
          { type := 0x93, tag := tag, payload := [0x00, n, 9] ++ put16 ((s.lanes.get i).runNumber + 1) })) ∧
    ((s.lanes.get i).config.direction = .capture → (s.lanes.get i).state = .stopped →
      (s.lanes.get i).config.regionSize < (s.lanes.get i).config.frameSize * (s.lanes.get i).config.channels →
      exec (.lgo tag n) s = .next (s.postAnswer { type := 0x93, tag := tag, payload := [0x12] })) ∧
    ((s.lanes.get i).state ≠ .stopped → ((s.lanes.get i).config.direction = .play → (s.lanes.get i).state ≠ .drained) →
      exec (.lgo tag n) s = .next (s.postAnswer { type := 0x93, tag := tag, payload := [0x13] }))

/-- R86, R158, R153: LHALT takes an active PLAY lane to STOPPING, its fade source CURSOR exactly from PLAYING, its flush choice held; in
STOPPING it adds its flush choice to the one held, and in STOPPED it releases every frame when it carries flush, with the watermark flags
of R60. A CAPTURE lane in RUNNING becomes STOPPED at once, its frame being filled is given up and counted, and with flush its closed
frames are released, as in STOPPED (ReleaseMarksAndReclaims); no other capture lane running, SPC's clock watch is IDLE. A lane in OFF
refuses with E_STATE. A lane number above 5 or an unknown flush code is refused with E_RANGE. -/
def Obligations.LhaltStopsALane : Prop :=
  ∀ (tag : Byte) (r : LhaltReq) (s : State), s.Ready →
    ((5 < r.lane.toNat ∨ 1 < r.flush.toNat) →
      exec (.lhalt tag r) s = .next (s.postAnswer { type := 0x94, tag := tag, payload := [0x12] })) ∧
    ∀ (i : LaneId) (flush : Bool), r.lane.toNat = i.num →
    ((r.flush = 0 ∧ flush = false) ∨ (r.flush = 1 ∧ flush = true)) →
    ((s.lanes.get i).config.direction = .play → (s.lanes.get i).state ≠ .off → (s.lanes.get i).state ≠ .stopped →
      (s.lanes.get i).state ≠ .stopping →
      exec (.lhalt tag r) s = .next
        ({ s with lanes := s.lanes.set i { s.lanes.get i with
            state := .stopping
            halt := some { fromCursor := decide ((s.lanes.get i).state = LaneState.playing), flush := flush } } }.postAnswer
          { type := 0x94, tag := tag, payload := [0x00, r.lane, 7] })) ∧
    (∀ h : Halt, (s.lanes.get i).config.direction = .play → (s.lanes.get i).state = .stopping → (s.lanes.get i).halt = some h →
      exec (.lhalt tag r) s = .next
        ({ s with lanes := s.lanes.set i { s.lanes.get i with
            halt := some { fromCursor := h.fromCursor, flush := h.flush || flush } } }.postAnswer
          { type := 0x94, tag := tag, payload := [0x00, r.lane, 7] })) ∧
    (∀ m : Lane, (s.lanes.get i).state = .stopped →
      m = (if flush = true then (s.lanes.get i).releaseWhere (fun _ => true) else s.lanes.get i) →
      ((s.lanes.get i).config.direction = .play →
        exec (.lhalt tag r) s = .next
          ({ s with lanes := s.lanes.set i { m with
              flags := (s.lanes.get i).flags ||| (if flush = true ∧ (s.lanes.get i).config.low ≤ (s.lanes.get i).buffered ∧
                0 < (s.lanes.get i).config.low then 0x10 else 0) } }.postAnswer
            { type := 0x94, tag := tag, payload := [0x00, r.lane, 1] })) ∧
      ((s.lanes.get i).config.direction = .capture → (∀ j, (s.lanes.get j).isRunning = false) →
        exec (.lhalt tag r) s = .next
          ({ s with lanes := s.lanes.set i m, spc := { s.spc with watch := .idle } }.postAnswer
            { type := 0x94, tag := tag, payload := [0x00, r.lane, 1] }))) ∧
    ((s.lanes.get i).config.direction = .capture → (s.lanes.get i).state = .running →
      (∀ j, j ≠ i → (s.lanes.get j).isRunning = false) →
      ∃ l m : Lane,
        m = (if flush = true then (s.lanes.get i).discardFilling.releaseWhere (fun _ => true)
          else (s.lanes.get i).discardFilling) ∧
        l.state = .stopped ∧ l.entryTime = none ∧ l.filling = none ∧
        l.queue = (if flush = true then [] else (s.lanes.get i).queue) ∧
        l.captureCounters = { (s.lanes.get i).captureCounters with
          discards := if (s.lanes.get i).filling = none then (s.lanes.get i).captureCounters.discards
            else min ((s.lanes.get i).captureCounters.discards + 1) 65535 } ∧
        l = { s.lanes.get i with
          state := l.state, entryTime := l.entryTime, filling := l.filling, queue := l.queue,
          captureCounters := l.captureCounters, allocs := m.allocs, reclaimOffset := m.reclaimOffset, cursor := m.cursor } ∧
        exec (.lhalt tag r) s = .next
          ({ s with lanes := s.lanes.set i l, spc := { s.spc with watch := .idle } }.postAnswer
            { type := 0x94, tag := tag, payload := [0x00, r.lane, 1] })) ∧
    ((s.lanes.get i).state = .off →
      exec (.lhalt tag r) s = .next (s.postAnswer { type := 0x94, tag := tag, payload := [0x13] }))

/-- R107, R167: LSTAT changes nothing; it is refused with E_RANGE for a lane number above 5, and is otherwise answered with 118 bytes,
an OFF lane included. On a lane of either direction they begin with its whole configuration as stored, in the order of LCFG's fields
(R45 has LSTAT report every field; that R201, which sends fields of the other direction as 0, does not reach these 36 bytes is the
model's reading: log 15), and its state. On a PLAY lane follow its current stream, its pending stream with T, its held records, buffered
count, region size and fill, its cursor's frame and index, its aim, its pending action count, its last tag, its nine counters, and its
last error and step. A CAPTURE lane has in their places its held records, the frame being filled among them, its buffered count, region
size and fill, its pending action count, its three counters, its run number, last sequence, closed frames, and the samples written into
the frame being filled. What is absent or of the other direction is 0. -/
def Obligations.LstatReportsTheLane : Prop :=
  ∀ (tag n : Byte) (s : State), s.Ready →
    (5 < n.toNat → exec (.lstat tag n) s = .next (s.postAnswer { type := 0x95, tag := tag, payload := [0x12] })) ∧
    (∀ (i : LaneId) (l : Lane) (config counts : List Byte), n.toNat = i.num → l = s.lanes.get i →
      config = n :: (if l.state = .off then 0 else 1) :: l.config.direction.code :: l.config.firstPage :: l.config.lastPage
        :: BitVec.ofNat 8 l.config.quota :: BitVec.ofNat 8 l.config.channels :: l.config.policy.code
        :: (put32 (BitVec.ofNat 32 l.config.leadLimit) ++ put32 (BitVec.ofNat 32 l.config.low)
          ++ put32 (BitVec.ofNat 32 l.config.high) ++ put32 (BitVec.ofInt 32 l.config.roomOffset)
          ++ BitVec.ofNat 8 l.config.gs :: (put16 (BitVec.ofNat 16 l.config.trimMax)
            ++ put32 (BitVec.ofNat 32 l.config.slipLimit) ++ put16 (BitVec.ofNat 16 l.config.frameSize)
            ++ BitVec.ofNat 8 l.config.dataMark :: put16 (BitVec.ofNat 16 l.config.inputLatency))) →
      counts = BitVec.ofNat 8 l.held :: (put32 (BitVec.ofNat 32 l.buffered)
        ++ put32 (BitVec.ofNat 32 l.config.regionSize) ++ put32 (BitVec.ofNat 32 l.fill)) →
      ∃ p : List Byte,
        exec (.lstat tag n) s = .next (s.postAnswer { type := 0x95, tag := tag, payload := p }) ∧ p.length = 118 ∧
        (l.config.direction = .play →
          p = 0x00 :: (config ++ l.state.code :: ((match l.current with
              | none => [0, 0, 0]
              | some st => 1 :: put16 st)
            ++ (match l.switch with
              | none => List.replicate 9 0
              | some sw => 1 :: (put16 sw.stream ++ put48 sw.time))
            ++ counts
            ++ (match l.cursor, l.queue with
              | some c, f :: _ => 1 :: (put16 f.stream ++ put16 f.seq ++ put16 (BitVec.ofNat 16 c.index))
              | _, _ => List.replicate 7 0)
            ++ (match l.aim with
              | .absent => List.replicate 7 0
              | .frame => 1 :: List.replicate 6 0
              | .time a => 2 :: put48 a)
            ++ BitVec.ofNat 8 l.actions.length :: ((match l.lastTag with
                | none => [0, 0]
                | some x => [1, x])
              ++ put16 (BitVec.ofNat 16 l.counters.starts) ++ put16 (BitVec.ofNat 16 l.counters.lateDrops)
              ++ put16 (BitVec.ofNat 16 l.counters.gaps) ++ put16 (BitVec.ofNat 16 l.counters.overlaps)
              ++ put16 (BitVec.ofNat 16 l.counters.starvations) ++ put16 (BitVec.ofNat 16 l.counters.holds)
              ++ put16 (BitVec.ofNat 16 l.counters.slips) ++ put16 (BitVec.ofNat 16 l.counters.slipDrops)
              ++ put16 (BitVec.ofNat 16 l.counters.purges) ++ List.replicate 8 0
              ++ (match l.lastError with
                | none => List.replicate 7 0
                | some e => 1 :: put48 (BitVec.ofInt 48 e))
              ++ (match l.lastStep with
                | none => List.replicate 5 0
                | some x => 1 :: put32 (BitVec.ofNat 32 x)))))) ∧
        (l.config.direction = .capture →
          p = 0x00 :: (config ++ l.state.code :: (List.replicate 12 0 ++ counts ++ List.replicate 14 0
            ++ BitVec.ofNat 8 l.actions.length :: ([0, 0]
              ++ put16 (BitVec.ofNat 16 l.captureCounters.closed) ++ put16 (BitVec.ofNat 16 l.captureCounters.overruns)
              ++ put16 (BitVec.ofNat 16 l.captureCounters.discards) ++ List.replicate 12 0
              ++ put16 l.runNumber ++ put16 l.lastSeq ++ BitVec.ofNat 8 l.queue.length
                :: ((match l.filling with
                  | none => [0, 0, 0]
                  | some x => 1 :: put16 (BitVec.ofNat 16 x.written))
                ++ List.replicate 12 0))))))

/-- R165: LFETCH removes the oldest closed frame of an enabled CAPTURE lane and returns it: its fields, the number remaining, and its
samples as 24-bit values in the order of the store; its allocation is released (R56). With no closed frame it is refused with E_NOREC;
on a PLAY lane or in OFF with E_STATE; for a lane number above 5 with E_RANGE. The store is unchanged. -/
def Obligations.LfetchReturnsTheOldestFrame : Prop :=
  ∀ (tag n : Byte) (s : State), s.Ready →
    (5 < n.toNat → exec (.lfetch tag n) s = .next (s.postAnswer { type := 0x96, tag := tag, payload := [0x12] })) ∧
    ∀ i : LaneId, n.toNat = i.num →
    ((s.lanes.get i).config.direction = .capture → (s.lanes.get i).state ≠ .off →
      ∀ f rest, (s.lanes.get i).queue = f :: rest →
      ∃ l : Lane,
        l = { s.lanes.get i with
          queue := rest
          allocs := ((s.lanes.get i).releaseAlloc f.offset).allocs
          reclaimOffset := ((s.lanes.get i).releaseAlloc f.offset).reclaimOffset
          cursor := if f.status = .playing then none else (s.lanes.get i).cursor } ∧
        exec (.lfetch tag n) s = .next ({ s with lanes := s.lanes.set i l }.postAnswer
          { type := 0x96, tag := tag,
            payload := 0x00 :: (put16 f.stream ++ put16 f.seq ++ [f.epoch]
              ++ (match f.pts with
                | none => [0, 0, 0, 0, 0, 0, 0]
                | some t => 1 :: put48 t)
              ++ put16 (BitVec.ofNat 16 f.samples)
              ++ [BitVec.ofNat 8 f.channels, if f.disc then 1 else 0, BitVec.ofNat 8 rest.length]
              ++ ((List.range (f.samples * f.channels)).map (fun k =>
                  let w := s.store.read ((s.lanes.get i).config.wordAt (f.offset + k))
                  [w.extractLsb' 16 8, w.extractLsb' 8 8, w.extractLsb' 0 8])).flatten) })) ∧
    ((s.lanes.get i).config.direction = .capture → (s.lanes.get i).state ≠ .off → (s.lanes.get i).queue = [] →
      exec (.lfetch tag n) s = .next (s.postAnswer { type := 0x96, tag := tag, payload := [0x3B] })) ∧
    ((s.lanes.get i).config.direction = .play ∨ (s.lanes.get i).state = .off →
      exec (.lfetch tag n) s = .next (s.postAnswer { type := 0x96, tag := tag, payload := [0x13] }))

/-! ## The mixer -/

/-- R131, R132: MGAIN sets the lane's channel map on the port and begins a ramp there from the gain reached to the carried gain over the
carried number of blocks, 0 raised to 1 and answered ADJUSTED. The current gain and every other channel stay. R137: MDUCK replaces the
three depths (each at most 32,768), the attack and release (each at least 1) and the six classes, and is ADJUSTED exactly when a value
was clamped; a class above 3 is refused with E_RANGE. The duck levels do not move. MGAIN of a lane number above 5, of a port code other
than SPA's and SPB's, or of an unknown map code is refused with E_RANGE. -/
def Obligations.MgainAndMduck : Prop :=
  (∀ (tag : Byte) (r : MgainReq) (i : LaneId) (p : OutPort) (m : ChannelMap) (s : State) (n : Nat), s.Ready →
    r.lane.toNat = i.num → outPortCode p = r.port → m.code = r.map → n = max 1 r.ramp.toNat →
    ∃ t, exec (.mgain tag r) s = .next t ∧
      t.mixer.channel i p =
        { map := m, current := (s.mixer.channel i p).current, start := (s.mixer.channel i p).current,
          target := r.gain.toNat, n := n, b := 0 } ∧
      (∀ j q, (j ≠ i ∨ q ≠ p) → t.mixer.channel j q = s.mixer.channel j q) ∧
      t = { s with mixer := { s.mixer with channels := t.mixer.channels } }.postAnswer
        { type := 0xA0, tag := tag,
          payload := [if r.ramp = 0 then 0x01 else 0x00, r.lane, r.port, r.map]
            ++ put16 (BitVec.ofNat 16 (s.mixer.channel i p).current) ++ put16 r.gain
            ++ [BitVec.ofNat 8 n, BitVec.ofNat 8 n] }) ∧
  (∀ (tag : Byte) (r : MgainReq) (s : State), s.Ready → (5 < r.lane.toNat ∨ 1 < r.port.toNat ∨ 4 < r.map.toNat) →
    exec (.mgain tag r) s = .next (s.postAnswer { type := 0xA0, tag := tag, payload := [0x12] })) ∧
  (∀ (tag : Byte) (r : MduckReq) (s : State), s.Ready →
    (r.class0.toNat ≤ 3 ∧ r.class1.toNat ≤ 3 ∧ r.class2.toNat ≤ 3 ∧ r.class3.toNat ≤ 3 ∧ r.class4.toNat ≤ 3 ∧
        r.class5.toNat ≤ 3 →
      ∃ t code, exec (.mduck tag r) s = .next t ∧
        t.mixer = { s.mixer with
          d1 := min r.d1.toNat 32768, d2 := min r.d2.toNat 32768, d3 := min r.d3.toNat 32768,
          attack := max 1 r.attack.toNat, release := max 1 r.release.toNat,
          duckClass := ⟨r.class0.toNat, r.class1.toNat, r.class2.toNat, r.class3.toNat, r.class4.toNat, r.class5.toNat⟩ } ∧
        code = (if t.mixer.d1 = r.d1.toNat ∧ t.mixer.d2 = r.d2.toNat ∧ t.mixer.d3 = r.d3.toNat ∧
          t.mixer.attack = r.attack.toNat ∧ t.mixer.release = r.release.toNat then 0x00 else 0x01) ∧
        t = { s with mixer := t.mixer }.postAnswer
          { type := 0xA1, tag := tag,
            payload := code :: (put16 (BitVec.ofNat 16 t.mixer.d1) ++ put16 (BitVec.ofNat 16 t.mixer.d2)
              ++ put16 (BitVec.ofNat 16 t.mixer.d3) ++ [BitVec.ofNat 8 t.mixer.attack, BitVec.ofNat 8 t.mixer.release,
                r.class0, r.class1, r.class2, r.class3, r.class4, r.class5]
              ++ (LaneId.list.map (fun j => put16 (BitVec.ofNat 16 (s.mixer.duckLevel.get j)))).flatten) }) ∧
    (3 < r.class0.toNat ∨ 3 < r.class1.toNat ∨ 3 < r.class2.toNat ∨ 3 < r.class3.toNat ∨ 3 < r.class4.toNat ∨
        3 < r.class5.toNat →
      exec (.mduck tag r) s = .next (s.postAnswer { type := 0xA1, tag := tag, payload := [0x12] })))

/-! ## The serial audio ports -/

/-- R154, R140: PCFG of an output port stores its format, latency and master gain, and leaves what the port does until the next
boundary; the carried clock mode is not used. PCFG of SPC stores its format and clock mode, while no capture lane is RUNNING, and is
refused with E_STATE when one is and a value differs. An unknown port, enable, width, polarity or alignment code, and for SPC an unknown
clock mode code, is refused with E_RANGE. For SPA and SPB, R200 refuses an unknown clock mode code as well, while R154's check 1 tests
that code for SPC alone: which of the two holds is a free value of the model (log 34). -/
def Obligations.PcfgStoresTheConfiguration : Prop :=
  ∀ (tag : Byte) (r : PcfgReq) (s : State), s.Ready →
    ((2 < r.port.toNat ∨ 1 < r.enable.toNat ∨ (r.width ≠ 16 ∧ r.width ≠ 24) ∨ 1 < r.polarity.toNat ∨ 1 < r.alignment.toNat ∨
        (1 < r.clockMode.toNat ∧ (r.port = 2 ∨ Config.refusesUnusedClockMode = true))) →
      exec (.pcfg tag r) s = .next (s.postAnswer { type := 0xA8, tag := tag, payload := [0x12] })) ∧
    ∀ f : PortFormat, r.enable = (if f.enable then 1 else 0) → f.width.code = r.width → f.polarity.code = r.polarity →
    f.alignment.code = r.alignment →
    (∀ p, outPortCode p = r.port → (r.clockMode.toNat ≤ 1 ∨ Config.refusesUnusedClockMode = false) →
      exec (.pcfg tag r) s = .next
        ({ s with
            ports := s.ports.set p { s.ports.get p with format := f, latency := r.latency.toNat }
            mixer := { s.mixer with master := s.mixer.master.set p r.master.toNat } }.postAnswer
          { type := 0xA8, tag := tag,
            payload := [0x00, r.port, r.enable, r.width, r.polarity, r.alignment] ++ put16 r.latency ++ put16 r.master ++ [0]
              ++ put16 (BitVec.ofNat 16 (s.mixer.clips.get p)) ++ put16 (BitVec.ofNat 16 (s.ports.get p).hang)
              ++ [if (s.ports.get p).active then 1 else 0, 0] })) ∧
    (∀ m : ClockMode, r.port = 2 → m.code = r.clockMode →
      ((∀ i, (s.lanes.get i).isRunning = false) →
        exec (.pcfg tag r) s = .next
          ({ s with spc := { s.spc with format := f, mode := m } }.postAnswer
            { type := 0xA8, tag := tag,
              payload := [0x00, 2, r.enable, r.width, r.polarity, r.alignment, 0, 0, 0, 0, r.clockMode, 0, 0, 0, 0, 0,
                s.spc.watch.code] })) ∧
      ((∃ i, (s.lanes.get i).isRunning = true) → (f ≠ s.spc.format ∨ m ≠ s.spc.mode) →
        exec (.pcfg tag r) s = .next (s.postAnswer { type := 0xA8, tag := tag, payload := [0x13] })))

/-- R5, R145, R146, R147, R149: at the start of a sample period of an enabled port the finished blocks leave the emission list, and the
staging pair is the one of the block position that covers the period, reduced to the port's width. It is (0, 0) where no listed block
has begun, the list being used up or, as in the 65 periods after an enable (R147), holding only blocks yet to begin, which it keeps.
When the local count reaches the hang tail end it becomes absent, and with a hang count of 0 the activity indication falls. R144: an
enabled port's bit clock is low from each multiple of 8 and high from 4 ticks later; word select is low in the left half of the 512-tick
period and high in the right under LEFT-LOW, and the reverse under LEFT-HIGH; data carries the staging value of the slot in two's
complement, most significant bit first, from the slot's first bit clock on, or with DELAYED from its second, and 0 in every other. A
disabled port's lines are low. R150: SPC drives bit clock and word select so in MASTER mode, low while disabled, and neither in SLAVE
mode. -/
def Obligations.SamplePeriodAndHangTail : Prop :=
  (∀ (p : OutPort) (s : State) (done rest : List EmissionBlock) (e : EmissionBlock) (j : Nat) (v : Int × Int),
    s.running = true → s.count.toNat % 512 = 0 → (s.ports.get p).inForce.enable = true →
    (s.ports.get p).emission = done ++ e :: rest →
    (∀ d ∈ done, 32768 ≤ (s.count - (d.base + 33280)).toInt) →
    512 * (j : Int) ≤ (s.count - (e.base + 33280)).toInt → (s.count - (e.base + 33280)).toInt < 512 * (j + 1) → j < 64 →
    e.pairs[j]? = some v →
    exec (.samplePeriod p) s = .next { s with ports := s.ports.set p { s.ports.get p with
      emission := e :: rest
      staging := match (s.ports.get p).inForce.width with
        | .w24 => v
        | .w16 => (min 32767 ((v.1 + 128) / 256), min 32767 ((v.2 + 128) / 256)) } }) ∧
  (∀ (p : OutPort) (s : State) (done waiting : List EmissionBlock), s.running = true → s.count.toNat % 512 = 0 →
    (s.ports.get p).inForce.enable = true → (s.ports.get p).emission = done ++ waiting →
    (∀ d ∈ done, 32768 ≤ (s.count - (d.base + 33280)).toInt) →
    (∀ e ∈ waiting, (s.count - (e.base + 33280)).toInt < 0) →
    exec (.samplePeriod p) s = .next { s with ports := s.ports.set p { s.ports.get p with
      emission := waiting, staging := (0, 0) } }) ∧
  (∀ (p : OutPort) (s : State) (e : Time), s.running = true → (s.ports.get p).tailEnd = some e → 0 ≤ (s.count - e).toInt →
    ∃ t, exec (.hangTailEnd p) s = .next t ∧ t = { s with ports := s.ports.set p { s.ports.get p with tailEnd := none } } ∧
      ((s.ports.get p).hang = 0 → (t.ports.get p).active = false)) ∧
  (∀ (f : PortFormat) (now : Time) (clock select : Bool), (clock = true ↔ 4 ≤ now.toNat % 8) →
    (select = true ↔ ((f.polarity = .leftLow ∧ 256 ≤ now.toNat % 512) ∨ (f.polarity = .leftHigh ∧ now.toNat % 512 < 256))) →
    (∀ p : OutPortState, p.inForce = f →
      (f.enable = false → p.linesAt now = { bitClock := false, wordSelect := false, data := false }) ∧
      (∀ (width first clocks : Nat) (v : Int), f.enable = true →
        ((f.width = .w16 ∧ width = 16) ∨ (f.width = .w24 ∧ width = 24)) →
        ((f.alignment = .justified ∧ first = 0) ∨ (f.alignment = .delayed ∧ first = 1)) →
        clocks = now.toNat % 256 / 8 → v = (if now.toNat % 512 < 256 then p.staging.1 else p.staging.2) →
        p.linesAt now =
          { bitClock := clock
            wordSelect := select
            data := decide (first ≤ clocks) && (BitVec.ofInt width v).getMsbD (clocks - first) })) ∧
    (∀ p : InPortState, p.inForce = f →
      (p.modeInForce = .slave → p.drivenAt now = none) ∧
      (p.modeInForce = .master → p.drivenAt now = some (if f.enable then (clock, select) else (false, false)))))

/-- R143, R150 to R153: a rising edge of SPC's bit clock appends its bit to the open slot, but for the first of a DELAYED slot and those
after the width is complete, by the format the sample's period began under. A word-select transition to the level of the left slot, the
fall to low under LEFT-LOW and the rise to high under LEFT-HIGH, ends the sample and opens the next one at its count, under the format
in force; a sample ended within its left slot is handed to no lane (log 33). A transition to the other level ends the slot open till
then, whose bits not received read 0, and opens the right slot. Each is taken by a clock watch that is not IDLE. In SLAVE mode a
transition to the level at which the line stands is none, and in MASTER mode the transitions are those of the 512-tick grid and the
rising edges those 4 ticks after each multiple of 8. A command that is none of these, or a second one at its tick, is no event of the
part, and changes nothing (log 3, log 12). By which polarity a SLAVE transition within the left slot is judged is the model's reading,
and so is that the bits of a second right slot, which only a change of polarity or clock mode makes, are none of the sample's (log
33). -/
def Obligations.SpcAssemblesSamples : Prop :=
  ∀ (s : State) (polarity : WsPolarity) (left : Bool), s.running = true → s.spc.inForce.enable = true →
    (∀ a, s.spc.modeInForce = .slave → s.spc.assembly = some a → a.slot = .left → polarity = a.format.polarity) →
    ((s.spc.modeInForce = .master ∨ ∀ a, s.spc.assembly = some a → a.slot = .right) → polarity = s.spc.inForce.polarity) →
    ((polarity = .leftLow ∧ left = false) ∨ (polarity = .leftHigh ∧ left = true)) →
    (∀ (bit : Bool) (a : Assembly), s.spc.clockTaken = false → (s.spc.modeInForce = .slave ∨ s.count.toNat % 8 = 4) →
      s.spc.assembly = some a →
      exec (.spcBitTaken bit) s = .next { s with spc := { s.spc with clockTaken := true, assembly := some (
        match a.slot with
        | .left => { a with
            clocked := true
            leftBits := if (a.format.alignment = .delayed ∧ a.clocked = false) ∨
                a.format.width.bits ≤ a.leftBits.length then a.leftBits else a.leftBits ++ [bit] }
        | .right => { a with
            clocked := true
            rightBits := if (a.format.alignment = .delayed ∧ a.clocked = false) ∨
                a.format.width.bits ≤ a.rightBits.length then a.rightBits else a.rightBits ++ [bit] }) } }) ∧
    (∀ bit, (s.spc.clockTaken = true ∨ (s.spc.modeInForce = .master ∧ s.count.toNat % 8 ≠ 4)) →
      exec (.spcBitTaken bit) s = .next s) ∧
    (s.spc.selectTaken = false →
      ((s.spc.modeInForce = .slave ∧ s.spc.selectLevel ≠ some (!left)) ∨
        (s.spc.modeInForce = .master ∧ s.count.toNat % 512 = 256)) →
      ∀ a, s.spc.assembly = some a →
      exec .spcWordSelectEdge s = .next { s with spc := { s.spc with
        assembly := some (match a.slot with
          | .left => { a with
              slot := .right
              clocked := false
              leftBits := a.leftBits ++ List.replicate (a.format.width.bits - a.leftBits.length) false }
          | .right => { a with
              clocked := false
              rightBits := a.rightBits ++ List.replicate (a.format.width.bits - a.rightBits.length) false })
        watch := if s.spc.watch = .idle then .idle else .watching s.count
        selectLevel := some (!left)
        selectTaken := true } }) ∧
    (s.spc.selectTaken = false →
      ((s.spc.modeInForce = .slave ∧ s.spc.selectLevel ≠ some left) ∨
        (s.spc.modeInForce = .master ∧ s.count.toNat % 512 = 0)) →
      (s.spc.assembly = none ∨ (∃ a, s.spc.assembly = some a ∧ a.slot = .left) ∨ ∀ i, (s.lanes.get i).isRunning = false) →
      exec .spcSampleComplete s = .next { s with spc := { s.spc with
        assembly := some { opened := s.count, format := s.spc.inForce, slot := .left, clocked := false, leftBits := [],
                           rightBits := [] }
        watch := if s.spc.watch = .idle then .idle else .watching s.count
        selectLevel := some left
        selectTaken := true } }) ∧
    ((s.spc.selectTaken = true ∨ (s.spc.modeInForce = .slave ∧ s.spc.selectLevel = some left) ∨
        (s.spc.modeInForce = .master ∧ s.count.toNat % 512 ≠ 0)) → exec .spcSampleComplete s = .next s) ∧
    ((s.spc.selectTaken = true ∨ (s.spc.modeInForce = .slave ∧ s.spc.selectLevel = some (!left)) ∨
        (s.spc.modeInForce = .master ∧ s.count.toNat % 512 ≠ 256)) → exec .spcWordSelectEdge s = .next s)

/-- R152, R160, R162: a sample completed by an opening edge is handed to the RUNNING capture lane with its opening edge as stamp. When
the stamp is not earlier than the lane's entry time and the frame being filled stays open, its values are written at the frame's next
words (the left one alone for one channel), and nothing else of the lane or the store moves. R151: the value of a slot is its bits in
two's complement, most significant first, those not received 0, at the width its sample period began under (R143), a 16-bit value
multiplied by 256. A sample with an earlier stamp is not taken, and one whose right slot never opened, as a change of clock mode may
leave one, is handed to no lane (log 33). Its premise is the law of the store (StoreLawIsKept). -/
def Obligations.CapturedSampleIsWritten : Prop :=
  ∀ (s : State) (i : LaneId) (a : Assembly) (e : Time), s.StoreLaw → s.running = true →
    s.spc.inForce.enable = true → s.spc.selectTaken = false →
    ((s.spc.modeInForce = .slave ∧ s.spc.selectLevel ≠ some s.spc.leftLevel) ∨
      (s.spc.modeInForce = .master ∧ s.count.toNat % 512 = 0)) →
    s.spc.assembly = some a →
    (s.lanes.get i).isRunning = true → (∀ j, j ≠ i → (s.lanes.get j).isRunning = false) →
    (s.lanes.get i).entryTime = some e →
    ∃ t, exec .spcSampleComplete s = .next t ∧
      t = { s with
        lanes := t.lanes
        store := t.store
        spc := { s.spc with
          assembly := some { opened := s.count, format := s.spc.inForce, slot := .left, clocked := false, leftBits := [],
                             rightBits := [] }
          watch := if s.spc.watch = .idle then .idle else .watching s.count
          selectLevel := some s.spc.leftLevel
          selectTaken := true } } ∧
      ((a.slot = .left ∨ (a.opened - e).toInt < 0) → t.lanes = s.lanes ∧ t.store = s.store) ∧
      (∀ f : Filling, a.slot = .right → 0 ≤ (a.opened - e).toInt → (s.lanes.get i).filling = some f → f.written + 1 < f.record.samples →
        (s.lanes.get i).config.channels = f.record.channels → (f.record.channels = 1 ∨ f.record.channels = 2) →
        t.lanes = s.lanes.set i { s.lanes.get i with filling := some { f with written := f.written + 1 } } ∧
        (∀ n bits, n < f.record.channels → bits = (if n = 0 then a.leftBits else a.rightBits) →
          ∃ v : Int,
            ((a.format.width = .w24 ∧ ∃ x : BitVec 24, (∀ k, k < 24 → x.getMsbD k = bits.getD k false) ∧ v = x.toInt) ∨
              (a.format.width = .w16 ∧ ∃ x : BitVec 16, (∀ k, k < 16 → x.getMsbD k = bits.getD k false) ∧ v = x.toInt * 256)) ∧
            t.store.read ((s.lanes.get i).config.wordAt (f.record.offset + f.written * f.record.channels + n)) =
              BitVec.ofInt 32 v) ∧
        (∀ w, (∀ n, n < f.record.channels →
            w ≠ (s.lanes.get i).config.wordAt (f.record.offset + f.written * f.record.channels + n)) →
          t.store.read w = s.store.read w))

/-- R152, R160 to R163: a sample with both slots that the RUNNING capture lane takes with no frame being filled begins one. While room
or a quota slot is lacking, the oldest closed frame is released as an overrun, with the counter and OVERRUN. The frame has an allocation
at the write offset, carries a DISCONTINUITY that was pending, and its stamp is that of the sample, its first. A sample that fills the
frame closes it: the record takes the run number as its stream, the next sequence, the tracker's epoch and the house time of the first
stamp less the input latency, absent while UNLOCKED. It joins the queue's newest end, and DATA is set when the queue then holds the data
mark. The sample's values are written at the frame's next words, and every other word stays. Its premise is the law of the store
(StoreLawIsKept). -/
def Obligations.CaptureFrameBeginsAndCloses : Prop :=
  ∀ (s : State) (i : LaneId) (a : Assembly) (e : Time) (l : Lane), s.StoreLaw → s.running = true →
    s.spc.inForce.enable = true → s.spc.selectTaken = false →
    ((s.spc.modeInForce = .slave ∧ s.spc.selectLevel ≠ some s.spc.leftLevel) ∨
      (s.spc.modeInForce = .master ∧ s.count.toNat % 512 = 0)) →
    s.spc.assembly = some a → a.slot = .right → l = s.lanes.get i → l.isRunning = true →
    (∀ j, j ≠ i → (s.lanes.get j).isRunning = false) → l.entryTime = some e → 0 ≤ (a.opened - e).toInt →
    (l.config.channels = 1 ∨ l.config.channels = 2) →
    ∃ t, exec .spcSampleComplete s = .next t ∧
      (∀ (k words : Nat) (m : Lane), l.filling = none → 1 < l.config.frameSize → l.captureCounters.overruns ≤ 65535 →
        words = l.config.frameSize * l.config.channels → m = Lane.releaseHead^[k] l → k ≤ l.queue.length →
        (∀ j, j < k → (Lane.releaseHead^[j] l).free < words ∨ l.config.quota ≤ l.queue.length - j) →
        words ≤ m.free → (l.queue.length - k < l.config.quota ∨ k = l.queue.length) →
        (∃ r : FrameRecord,
          r.status = .filling ∧ r.samples = l.config.frameSize ∧ r.channels = l.config.channels ∧ r.offset = l.writeOffset ∧
          r.disc = l.discPending ∧
          t.lanes = s.lanes.set i { m with
            writeOffset := (l.writeOffset + words) % l.config.regionSize
            allocs := m.allocs ++ [{ start := l.writeOffset, len := words, released := false }]
            filling := some { record := r, written := 1, first := a.opened }
            discPending := false
            captureCounters := { l.captureCounters with overruns := min (l.captureCounters.overruns + k) 65535 }
            flags := l.flags ||| (if k = 0 then 0 else 0x40) }) ∧
        (∀ n, n < l.config.channels → t.store.read (l.config.wordAt (l.writeOffset + n)) =
          BitVec.ofInt 32 (slotValue a.format.width (if n = 0 then a.leftBits else a.rightBits))) ∧
        (∀ w, (∀ n, n < l.config.channels → w ≠ l.config.wordAt (l.writeOffset + n)) → t.store.read w = s.store.read w)) ∧
      (∀ (f : Filling), l.filling = some f → f.written + 1 = f.record.samples → l.config.channels = f.record.channels →
        t.lanes = s.lanes.set i { l with
          queue := l.queue ++ [{ f.record with
            status := .queued
            stream := l.runNumber
            seq := l.lastSeq + 1
            epoch := s.tracker.epoch
            pts := s.tracker.house? (f.first - BitVec.ofNat 48 l.config.inputLatency)
            endMark := false
            tag := none }]
          lastSeq := l.lastSeq + 1
          filling := none
          captureCounters := { l.captureCounters with closed := min (l.captureCounters.closed + 1) 65535 }
          flags := l.flags ||| (if l.queue.length + 1 = l.config.dataMark then 0x80 else 0) } ∧
        (∀ n, n < l.config.channels →
          t.store.read (l.config.wordAt (f.record.offset + f.written * f.record.channels + n)) =
            BitVec.ofInt 32 (slotValue a.format.width (if n = 0 then a.leftBits else a.rightBits))) ∧
        (∀ w, (∀ n, n < l.config.channels →
            w ≠ l.config.wordAt (f.record.offset + f.written * f.record.channels + n)) →
          t.store.read w = s.store.read w))

/-- R153, R164: 65,536 ticks after the last word-select edge seen while WATCHING, SPC's clock is LOST: no sample is in assembly, INCLK
is set, and a RUNNING capture lane gives its frame being filled up, with the discards counter (log 31) and its allocation released
(R56), and marks a discontinuity pending. Its closed frames and every other lane stay. -/
def Obligations.InputClockIsLost : Prop :=
  ∀ (s : State) (w : Time), s.running = true → s.spc.watch = .watching w → 65536 ≤ (s.count - w).toInt →
    ∃ t, exec .inputClockLoss s = .next t ∧
      t = { s with
        spc := { s.spc with assembly := none, watch := .lost }
        lanes := t.lanes
        link := { s.link with portFlags := s.link.portFlags ||| 0x20 } } ∧
      (∀ i, (s.lanes.get i).isRunning = false → t.lanes.get i = s.lanes.get i) ∧
      (∀ i, (s.lanes.get i).isRunning = true →
        (t.lanes.get i).filling = none ∧ (t.lanes.get i).discPending = true ∧
        t.lanes.get i = { s.lanes.get i with
          filling := none
          discPending := true
          allocs := (s.lanes.get i).discardFilling.allocs
          reclaimOffset := (s.lanes.get i).discardFilling.reclaimOffset
          captureCounters := { (s.lanes.get i).captureCounters with
            discards := if (s.lanes.get i).filling = none then (s.lanes.get i).captureCounters.discards
              else min ((s.lanes.get i).captureCounters.discards + 1) 65535 } })

/-! ## Cue timers and general lines -/

/-- R176: CSET replaces the cue's configuration, the interval clamped to 32,768 to 2^40 and answered ADJUSTED exactly then, and keeps its
status. A new mode is refused with E_STATE while the cue is RUNNING. A cue number above 3, an unknown mode, action, report or line mode
code, a gate that is neither none nor a lane, a lane above 5 where the action has one, and for GAIN a port other than SPA and SPB are
refused with E_RANGE. That an unknown flush or port code is refused whatever the action is the model's choice (log 16). R178: CRUN applies
preset, stop and run in their order. Preset loads the reload value into a BLOCKS cue's count, and makes another cue
that is EXPIRED STOPPED; stop makes the cue STOPPED; run makes it RUNNING, or is refused with E_STATE in EXPIRED, the preset then not
taken either. Stop with run, another bit, or a cue number above 3 is refused with E_RANGE. Both report the cue's record, laid out byte by
byte here; that the fields its action does not use are 0 in it is the model's reading (log 16). -/
def Obligations.CsetAndCrun : Prop :=
  ∀ record : CueId → Cue → List Byte,
    (∀ c q, record c q =
      [BitVec.ofNat 8 c.num, q.mode.code] ++ put48 q.target ++ put48 (BitVec.ofNat 48 q.interval) ++ put16 (BitVec.ofNat 16 q.reload)
        ++ [match q.gate with
          | none => 0xFF
          | some i => BitVec.ofNat 8 i.num]
        ++ (match q.action with
          | .none => [0, 0, 0, 0, 0, 0, 0]
          | .go i => [1, BitVec.ofNat 8 i.num, 0, 0, 0, 0, 0]
          | .halt i flush => [2, BitVec.ofNat 8 i.num, if flush then 1 else 0, 0, 0, 0, 0]
          | .gain i p gain ramp =>
            [3, BitVec.ofNat 8 i.num, 0, outPortCode p] ++ put16 (BitVec.ofNat 16 gain) ++ [BitVec.ofNat 8 ramp])
        ++ [q.report.code, q.line.code, q.state.code] ++ put16 (BitVec.ofNat 16 q.count) ++ [if q.level then 1 else 0]
        ++ put16 (BitVec.ofNat 16 q.expiries) ++ put16 (BitVec.ofNat 16 q.skipped)
        ++ (match q.lastExpiry with
          | none => [0, 0, 0, 0, 0, 0, 0]
          | some k => 1 :: put48 (BitVec.ofNat 48 k.toNat))
        ++ [q.outcome.code]
        ++ (match q.reportDue with
          | none => [0, 0, 0, 0, 0, 0, 0]
          | some k => 1 :: put48 (BitVec.ofNat 48 k.toNat))) →
  (∀ (tag : Byte) (r : CsetReq) (s : State), s.Ready →
    (3 < r.cue.toNat ∨ 2 < r.mode.toNat ∨ (5 < r.gate.toNat ∧ r.gate ≠ 0xFF) ∨ 3 < r.action.toNat ∨ 1 < r.flush.toNat ∨
        2 < r.port.toNat ∨ (r.action ≠ 0 ∧ 5 < r.lane.toNat) ∨ (r.action = 3 ∧ 1 < r.port.toNat) ∨ 1 < r.report.toNat ∨
        1 < r.line.toNat) →
      exec (.cset tag r) s = .next (s.postAnswer { type := 0xB0, tag := tag, payload := [0x12] })) ∧
  (∀ (tag : Byte) (r : CrunReq) (s : State), s.Ready → (3 < r.cue.toNat ∨ 6 ≤ r.choices.toNat) →
    exec (.crun tag r) s = .next (s.postAnswer { type := 0xB1, tag := tag, payload := [0x12] })) ∧
  (∀ (tag : Byte) (r : CsetReq) (c : CueId) (mode : CueMode) (gate : Option LaneId) (action : CueAction) (report : ReportMode)
    (line : LineMode) (flush : Bool) (s : State), s.Ready → r.cue.toNat = c.num → mode.code = r.mode →
    ((r.gate = 0xFF ∧ gate = none) ∨ ∃ i : LaneId, r.gate.toNat = i.num ∧ gate = some i) →
    r.flush = (if flush then 1 else 0) → r.port.toNat ≤ 2 →
    ((r.action = 0 ∧ action = .none) ∨
      (∃ i : LaneId, r.lane.toNat = i.num ∧
        ((r.action = 1 ∧ action = .go i) ∨ (r.action = 2 ∧ action = .halt i flush) ∨
          ∃ p, r.action = 3 ∧ outPortCode p = r.port ∧ action = .gain i p r.gain.toNat r.ramp.toNat))) →
    report.code = r.report → line.code = r.line →
    (((s.cues.get c).state ≠ .running ∨ (s.cues.get c).mode = mode) →
      ∃ q, q = { s.cues.get c with
          mode := mode, target := r.target, interval := max 32768 (min (2 ^ 40) r.interval.toNat), reload := r.reload.toNat,
          gate := gate, action := action, report := report, line := line } ∧
        exec (.cset tag r) s = .next ({ s with cues := s.cues.set c q }.postAnswer
          { type := 0xB0, tag := tag, payload := (if q.interval = r.interval.toNat then 0x00 else 0x01) :: record c q })) ∧
    ((s.cues.get c).state = .running → (s.cues.get c).mode ≠ mode →
      exec (.cset tag r) s = .next (s.postAnswer { type := 0xB0, tag := tag, payload := [0x13] }))) ∧
  (∀ (tag : Byte) (r : CrunReq) (c : CueId) (s : State), s.Ready → r.cue.toNat = c.num →
    (∀ q : Cue, r.choices.toNat < 6 →
      q = (if r.choices.getLsbD 0 = false then s.cues.get c
        else if (s.cues.get c).mode = .blocks then { s.cues.get c with count := (s.cues.get c).reload }
        else if (s.cues.get c).state = .expired then { s.cues.get c with state := .stopped } else s.cues.get c) →
      ((r.choices.toNat < 2 →
          exec (.crun tag r) s = .next ({ s with cues := s.cues.set c q }.postAnswer
            { type := 0xB1, tag := tag, payload := 0x00 :: record c q })) ∧
        ((r.choices = 2 ∨ r.choices = 3) →
          exec (.crun tag r) s = .next ({ s with cues := s.cues.set c { q with state := .stopped } }.postAnswer
            { type := 0xB1, tag := tag, payload := 0x00 :: record c { q with state := .stopped } })) ∧
        ((r.choices = 4 ∨ r.choices = 5) → q.state ≠ .expired →
          exec (.crun tag r) s = .next ({ s with cues := s.cues.set c { q with state := .running } }.postAnswer
            { type := 0xB1, tag := tag, payload := 0x00 :: record c { q with state := .running } })) ∧
        ((r.choices = 4 ∨ r.choices = 5) → q.state = .expired →
          exec (.crun tag r) s = .next (s.postAnswer { type := 0xB1, tag := tag, payload := [0x13] })))))

/-- R104, R134, R175: the outcomes of the actions due at a boundary, those of the lanes' work and success for each gain action applied
(BoundaryStepsTheMixer), reach their cues at that boundary: the cue's outcome is recorded, with FAIL for a failure, and FIRED for a
success whose report was due. R169, R170, R172 to R175: then a RUNNING AT or EVERY cue expires when house time is defined and not
earlier than its target, and a RUNNING BLOCKS cue at a counted boundary with count 0; a count above 0 falls by 1 at a counted boundary.
An expiry counts, names the boundary, makes the line effect (a PULSE is high until the next boundary, a TOGGLE changes), hands its
action to the lane or the mixer in cue-number order, and sets FIRED, or makes the report due at the next boundary. An AT cue is then
EXPIRED. R104: a lane's pending action is applied at the next boundary as the request it names: GO makes a PLAY lane in STOPPED or
DRAINED ARMED with aim FRAME, and starts a CAPTURE lane in STOPPED whose region holds one frame; HALT makes an active PLAY lane STOPPING
with its halt choice, adds its flush choice in STOPPING, releases every frame in STOPPED with flush, and stops a CAPTURE lane at once;
what its request would refuse fails and changes nothing. The record is removed, and the lane's work and block at that boundary are those
of the lane so left, its watermark check from the count before. R171: when an EVERY cue with an interval of 32,768 to 2^40 expires, its
target is advanced by the interval until it is later than house time, by no more than one interval, and the skipped count rises by the
advances beyond the first. -/
def Obligations.CuesExpireAndReport : Prop :=
  (∀ (s : State) (k : BlockIndex) (house : Option Time) (outcome : CueId → Option Bool),
    s.running = true → s.boundaryDue = true → k = blockIndex s.count → house = s.tracker.house? (boundaryTime k) →
    (∀ c, outcome c = List.lookup c
      ((LaneId.list.map (fun i => ((s.lanes.get i).boundaryWork s.boundaryEnv).outcomes)).flatten ++
        (s.mixer.actions.filter (fun a => decide (a.expiry + 1 = k))).map (fun a => (a.cue, true)))) →
    ∃ (t : State) (counted expires : CueId → Bool), exec .blockBoundary s = .next t ∧
      (∀ c, counted c = true ↔ ((s.cues.get c).gate = none ∨ ∃ i, (s.cues.get c).gate = some i ∧
        (((s.lanes.get i).config.direction = .play ∧ (t.lanes.get i).state = .playing) ∨
          ((s.lanes.get i).config.direction = .capture ∧ (t.lanes.get i).state = .running)))) ∧
      (∀ c, expires c = true ↔ ((s.cues.get c).state = .running ∧
        (((s.cues.get c).mode = .blocks ∧ counted c = true ∧ (s.cues.get c).count = 0) ∨
          ((s.cues.get c).mode ≠ .blocks ∧ ∃ h, house = some h ∧ 0 ≤ (h - (s.cues.get c).target).toInt)))) ∧
      (∀ c q, q = { s.cues.get c with outcome := match outcome c with
          | none => (s.cues.get c).outcome
          | some true => .succeeded
          | some false => .failed } →
        t.cues.get c = { q with
          target := (if q.mode = .every ∧ expires c = true then (q.test house (counted c)).1.target else q.target)
          skipped := (if q.mode = .every ∧ expires c = true then (q.test house (counted c)).1.skipped else q.skipped)
          state := if q.mode = .at ∧ expires c = true then .expired else q.state
          count := if q.state = .running ∧ q.mode = .blocks ∧ counted c = true then
            (if q.count = 0 then q.reload else q.count - 1) else q.count
          level := match q.line with
            | .pulse => expires c
            | .toggle => if expires c then !q.level else q.level
          expiries := if expires c then min (q.expiries + 1) 65535 else q.expiries
          lastExpiry := if expires c then some k else q.lastExpiry
          outcome := if expires c = true ∧ q.action ≠ .none then .awaited else q.outcome
          reportDue := if expires c = true ∧ q.report = .afterAction ∧ q.action ≠ .none then some (k + 1)
            else if q.reportDue = some k then none else q.reportDue } ∧
        (t.flag (.cue (.fired c)) = true ↔ (s.flag (.cue (.fired c)) = true ∨
          (outcome c = some true ∧ q.reportDue = some k) ∨
          (expires c = true ∧ (q.report = .onExpiry ∨ q.action = .none)))) ∧
        (t.flag (.cue (.fail c)) = true ↔ (s.flag (.cue (.fail c)) = true ∨ outcome c = some false))) ∧
      (∀ i, ((∀ a ∈ (s.lanes.get i).actions, a.expiry + 1 = k) →
          ((t.lanes.get i).actions.map (fun a => a.cue.num)).Pairwise (· < ·)) ∧
        ∀ a, a ∈ (t.lanes.get i).actions ↔ ((a ∈ (s.lanes.get i).actions ∧ a.expiry + 1 ≠ k) ∨
          (expires a.cue = true ∧ a.expiry = k ∧
            (((s.cues.get a.cue).action = .go i ∧ a.action = .go) ∨
              ∃ flush, (s.cues.get a.cue).action = .halt i flush ∧ a.action = .halt flush)))) ∧
      ((∀ a ∈ s.mixer.actions, a.expiry + 1 = k) → (t.mixer.actions.map (fun a => a.cue.num)).Pairwise (· < ·)) ∧
      (∀ a, a ∈ t.mixer.actions ↔ ((a ∈ s.mixer.actions ∧ a.expiry + 1 ≠ k) ∨ (expires a.cue = true ∧ a.expiry = k ∧
        ∃ ramp, (s.cues.get a.cue).action = .gain a.lane a.port a.gain ramp ∧ a.ramp = max 1 ramp)))) ∧
  (∀ (env : BoundaryEnv) (l o m : Lane) (a : LaneAction) (ok fits : Bool), l.actions = [a] → a.expiry + 1 = env.block →
    o = { l with actions := [] } → fits = decide (l.config.frameSize * l.config.channels ≤ l.config.regionSize) →
    ((a.action = .go ∧ l.config.direction = .play ∧ (l.state = .stopped ∨ l.state = .drained) ∧ ok = true ∧
        m = { o with state := .armed, aim := .frame }) ∨
      (a.action = .go ∧ l.config.direction = .play ∧ l.state ≠ .stopped ∧ l.state ≠ .drained ∧ ok = false ∧ m = o) ∨
      (a.action = .go ∧ l.config.direction = .capture ∧ l.state = .stopped ∧ fits = true ∧ ok = true ∧
        m = { o with state := .running, runNumber := l.runNumber + 1, entryTime := some env.now, discPending := true }) ∨
      (a.action = .go ∧ l.config.direction = .capture ∧ (l.state ≠ .stopped ∨ fits = false) ∧ ok = false ∧ m = o) ∨
      (l.state = .off ∧ (∃ flush, a.action = .halt flush) ∧ ok = false ∧ m = o) ∨
      (∃ flush, a.action = .halt flush ∧ ok = true ∧
        ((l.config.direction = .play ∧ l.state ≠ .off ∧ l.state ≠ .stopped ∧ l.state ≠ .stopping ∧
            m = { o with
              state := .stopping, halt := some { fromCursor := decide (l.state = .playing), flush := flush } }) ∨
          (l.config.direction = .play ∧ l.state = .stopping ∧ ∃ h, l.halt = some h ∧
            m = { o with halt := some { fromCursor := h.fromCursor, flush := h.flush || flush } }) ∨
          (l.state = .stopped ∧ m = (if flush = true then o.releaseWhere (fun _ => true) else o)) ∨
          (l.config.direction = .capture ∧ l.state = .running ∧
            ∃ n : Lane, n = { o.discardFilling with state := .stopped, entryTime := none } ∧
              m = (if flush = true then n.releaseWhere (fun _ => true) else n))))) →
    (l.boundaryWork env).outcomes = [(a.cue, ok)] ∧ (l.boundaryWork env).block = (m.boundaryWork env).block ∧
    (l.boundaryWork env).lane = { (m.boundaryWork env).lane with
      flags := if l.config.direction = .play ∧ l.state = .stopped ∧ a.action = .halt true ∧ l.config.low ≤ l.buffered ∧
          0 < l.config.low then l.flags ||| 0x10 else (m.boundaryWork env).lane.flags } ∧
    (l.boundaryWork env).lane.actions = []) ∧
  (∀ (c : CueId) (k : BlockIndex) (house : Option Time) (counted ok : Bool) (q : Cue) (w v : CueWork),
    w = q.boundaryWork c k house counted (some ok) →
    v = Cue.boundaryWork c k house counted none { q with outcome := if ok then .succeeded else .failed } →
    w.cue = v.cue ∧ w.handed = v.handed ∧
    w.flags = (if ok then (if q.reportDue = some k then [CueFlag.fired c] else []) else [.fail c]) ++ v.flags) ∧
  (∀ (q : Cue) (h : Time) (counted : Bool), q.mode = .every → 32768 ≤ q.interval → q.interval ≤ 2 ^ 40 →
    0 ≤ (h - q.target).toInt →
    ∃ n : Nat, 1 ≤ n ∧ (q.test (some h) counted).2 = true ∧
      (q.test (some h) counted).1 = { q with
        target := q.target + BitVec.ofNat 48 (n * q.interval), skipped := min (q.skipped + (n - 1)) 65535 } ∧
      0 < (q.target + BitVec.ofNat 48 (n * q.interval) - h).toInt ∧
      (q.target + BitVec.ofNat 48 (n * q.interval) - h).toInt ≤ q.interval ∧
      ((n : Int) - 1) * q.interval ≤ (h - q.target).toInt)

/-- R180, R182, R183: GSET gives a line its function and stored level, and reports them with the level on the line; GREAD reports the six
lines and changes no line. The level is the stored one (OUTPUT), the cue's or its complement, high exactly in LOCKED and REF (LOCK), or
high exactly while the port's hang count is above 0 or a hang tail end is present (ACTIVE-A, ACTIVE-B: R149); for an INPUT line it is the
level at the contact, of which nothing is said (the free value of log 7). GSET of a line number above 5, of an unknown function or level
code, or of a cue number above 3 where the function takes one, is refused with E_RANGE. -/
def Obligations.LinesAreSetAndRead : Prop :=
  ∀ (tag : Byte) (s : State) (shows : LineFunction → Bool → Bool → Prop), s.Ready →
    (∀ f v b, shows f v b ↔ (match f with
      | .input => True
      | .output => b = v
      | .cue c => b = (s.cues.get c).level
      | .cueInverted c => b = !(s.cues.get c).level
      | .lock => (b = true ↔ s.tracker.state = .locked ∨ s.tracker.state = .ref)
      | .activeA => (b = true ↔ 0 < s.ports.spa.hang ∨ s.ports.spa.tailEnd ≠ none)
      | .activeB => (b = true ↔ 0 < s.ports.spb.hang ∨ s.ports.spb.tailEnd ≠ none))) →
    (∀ (r : GsetReq) (i : LineId) (f : LineFunction) (v : Bool), r.line.toNat = i.num → f.code = r.function →
      (∀ c, f = .cue c ∨ f = .cueInverted c → r.cue.toNat = c.num) → r.level = (if v then 1 else 0) →
      ∃ b : Bool, shows f v b ∧
        exec (.gset tag r) s = .next
          ({ s with lines := s.lines.set i { function := f, stored := v }, samples := s.samples + 1 }.postAnswer
            { type := 0xB8, tag := tag,
              payload := [0x00, r.line, r.function, BitVec.ofNat 8 f.cueNum, r.level, if b then 1 else 0] })) ∧
    (∀ r : GsetReq, (5 < r.line.toNat ∨ 6 < r.function.toNat ∨ ((r.function = 2 ∨ r.function = 3) ∧ 3 < r.cue.toNat) ∨
        1 < r.level.toNat) →
      exec (.gset tag r) s = .next (s.postAnswer { type := 0xB8, tag := tag, payload := [0x12] })) ∧
    (∃ level : LineId → Bool, (∀ i, shows (s.lines.get i).function (s.lines.get i).stored (level i)) ∧
      exec (.gread tag) s = .next ({ s with samples := s.samples + 1 }.postAnswer
        { type := 0xB9, tag := tag,
          payload := 0x00 :: (LineId.list.map (fun i =>
            [(s.lines.get i).function.code, BitVec.ofNat 8 (s.lines.get i).function.cueNum,
              if (s.lines.get i).stored then 1 else 0, if level i then 1 else 0])).flatten }))

/-! ## The message link and the event flags -/

/-- R185, R192, link status byte: at the fall of chip select the link fixes the status byte (ATTN in bit 7, the free slots in bits 5 and
4, the queued answers in bits 3 to 0), the head answer and the full verdict. ATTN is high exactly when an answer is queued or a flag is
set whose enable is on. Nothing else changes. Throughout the transaction, whatever is posted or discarded meanwhile, MISO carries that
status byte, then the head answer's type, tag, two bytes of payload length and payload, then 0. -/
def Obligations.ChipSelectFallFixesTheTransaction : Prop :=
  ∀ (s : State), s.running = true → s.link.transaction = none → s.LinkLaw → s.FlagLaw →
    ∃ t : Transaction,
      t.status.toNat = (if s.attn then 128 else 0) + 16 * (2 - s.link.inbound.length) + s.link.outbound.length ∧
      (s.attn = true ↔ s.link.outbound ≠ [] ∨ ∃ f : Flag, s.flag f = true ∧ s.flagEnabled f = true) ∧
      t.head = s.link.outbound.head? ∧ (t.full = true ↔ s.link.inbound.length = 2) ∧
      (t.headLive = true ↔ s.link.outbound ≠ []) ∧
      exec .chipSelectFall s = .next { s with link := { s.link with transaction := some t } } ∧
      ∀ during : State, during.link.transaction = some t →
        during.misoByte 0 = t.status ∧
        ∀ n, during.misoByte (n + 1) = (match s.link.outbound with
          | [] => 0
          | a :: _ => (a.type :: a.tag :: (put16 (BitVec.ofNat 16 a.payload.length) ++ a.payload)).getD n 0)

/-- R186, R187, R190: at the rise of chip select the transaction ends. A head answer still queued whose status byte, header and payload
all crossed is removed. The bytes are a request taken when they begin with a byte that is not 0 and the verdict was not FULL; that a
slot is free for it then is part of the law of the link (CaptureRateLinkAndFlagLawsAreKept). At most 6,404 bytes of it are kept (log
24). That bytes clocked on after the request, as more bytes cross, are no part of it is the model's reading of R187 and R190 (log 5).
Otherwise the buffer is as it was. -/
def Obligations.ChipSelectRiseJudgesTheTransaction : Prop :=
  ∀ (mosi : List Byte) (crossed : Nat) (t : Transaction) (s : State), s.link.transaction = some t → mosi.length ≤ crossed →
    exec (.chipSelectRise mosi crossed) s = .next { s with link := { s.link with
      transaction := none
      outbound := if t.headLive = true ∧ (∃ a, t.head = some a ∧ 5 + a.payload.length ≤ crossed)
        then s.link.outbound.tail else s.link.outbound
      inbound := if (∃ b, mosi.head? = some b ∧ b ≠ 0) ∧ t.full = false
        then s.link.inbound ++ [{ bytes := mosi.take 6404, overlong := decide (6404 < mosi.length) }]
        else s.link.inbound } }

/-- R190, R191: a taken request that fails framing is answered and reaches no owner. Too short for a header, overlong, or of a payload
that is not of the length it names: E_LEN, with its answer type, or 0x80 for an unknown one. Of an unknown type: 0x80 and E_TYPE. Of a
known type and another length than the type's: E_LEN. -/
def Obligations.FramingIsRefused : Prop :=
  ∀ (s : State), s.Ready →
    (∀ (ty tag hi lo : Byte) (p : List Byte),
      (((hi ++ lo : BitVec 16).toNat ≠ p.length ∨ 6400 < p.length) →
        ∃ a : Byte, ((∃ k : ReqType, k.code = ty ∧ a = ty + 0x80) ∨ ((∀ k : ReqType, k.code ≠ ty) ∧ a = 0x80)) ∧
          exec (.framingRefusal { bytes := ty :: tag :: hi :: lo :: p, overlong := false }) s =
            .next (s.postAnswer { type := a, tag := tag, payload := [0x10] })) ∧
      ((hi ++ lo : BitVec 16).toNat = p.length → p.length ≤ 6400 → (∀ k : ReqType, k.code ≠ ty) →
        exec (.framingRefusal { bytes := ty :: tag :: hi :: lo :: p, overlong := false }) s =
          .next (s.postAnswer { type := 0x80, tag := tag, payload := [0x11] })) ∧
      ((hi ++ lo : BitVec 16).toNat = p.length → p.length ≤ 6400 →
        ∀ (k : ReqType) (n : Nat), k.code = ty → k.fixedLength = some n → p.length ≠ n →
        exec (.framingRefusal { bytes := ty :: tag :: hi :: lo :: p, overlong := false }) s =
          .next (s.postAnswer { type := ty + 0x80, tag := tag, payload := [0x10] }))) ∧
    (∀ raw : RawRequest, (raw.overlong = true ∨ raw.bytes.length < 4) →
      ∃ a tag : Byte,
        ((∃ k : ReqType, raw.bytes.head? = some k.code ∧ a = k.code + 0x80) ∨
          ((∀ k : ReqType, raw.bytes.headD 0 ≠ k.code) ∧ a = 0x80)) ∧
        tag = raw.bytes.getD 1 0 ∧
        exec (.framingRefusal raw) s = .next (s.postAnswer { type := a, tag := tag, payload := [0x10] }))

/-- R194: EREAD reports every flag and every enable in the nine-byte layout, each at its place, and each lane's last cue tag or none. It
clears nothing and changes nothing. R195, R196: ECLEAR clears every flag its mask names and no other, and leaves the enables; EMASK
replaces the enables together and sets and clears no flag. Each is refused with E_RANGE, changing nothing, when it names a position that
holds no flag. -/
def Obligations.EreadEclearAndEmask : Prop :=
  (∀ (tag : Byte) (s : State), s.Ready →
    ∃ w : FlagWord,
      (∀ f : Flag, w.getLsbD f.place = s.flag f) ∧ (s.FlagLaw → w &&& ~~~ flagPositions = 0) ∧
      exec (.eread tag) s = .next (s.postAnswer
        { type := 0xC0, tag := tag,
          payload := 0x00 :: (put72 w ++ put72 s.link.enables ++ (LaneId.list.map (fun i =>
            match (s.lanes.get i).lastTag with
            | none => [0, 0]
            | some c => [1, c])).flatten) })) ∧
  (∀ (tag : Byte) (w : FlagWord) (s : State), s.Ready →
    (w &&& ~~~ flagPositions = 0 →
      ∃ t, exec (.eclear tag w) s = .next t ∧
        (∀ f : Flag, t.flag f = (s.flag f && !(w.getLsbD f.place))) ∧
        (∀ i, t.lanes.get i = { s.lanes.get i with flags := (t.lanes.get i).flags }) ∧
        t = { s with
          lanes := t.lanes
          link := { s.link with
            trackerFlags := t.link.trackerFlags, portFlags := t.link.portFlags, cueFlags := t.link.cueFlags } }.postAnswer
          { type := 0xC1, tag := tag, payload := 0x00 :: put72 t.flagWord }) ∧
    (w &&& ~~~ flagPositions = 0 →
      exec (.emask tag w) s = .next ({ s with link := { s.link with enables := w } }.postAnswer
        { type := 0xC2, tag := tag, payload := 0x00 :: (put72 w ++ put72 s.flagWord) })) ∧
    (w &&& ~~~ flagPositions ≠ 0 →
      exec (.eclear tag w) s = .next (s.postAnswer { type := 0xC1, tag := tag, payload := [0x12] }) ∧
      exec (.emask tag w) s = .next (s.postAnswer { type := 0xC2, tag := tag, payload := [0x12] })))

/-- R197: XIDENT reports part code 0x0460, revision 1, 256 pages of 1,024 words, 6 lanes, 128 frame records, 4 cue timers, 6 general
lines, 2 inbound slots, 8 outbound answers and a largest payload of 6,400 bytes, and changes nothing else. -/
def Obligations.XidentReportsThePart : Prop :=
  ∀ (tag : Byte) (s : State), s.Ready →
    exec (.xident tag) s = .next (s.postAnswer
      { type := 0xF1, tag := tag,
        payload := [0x00, 0x04, 0x60, 1, 0x01, 0x00, 0x04, 0x00, 6, 128, 4, 6, 2, 8, 0x19, 0x00] })

/-- R200, field table: for every request the link can carry, decoding its encoding gives it back, with every field at every value. It says
that no bit of an encoding is dropped. -/
def Obligations.RequestRoundTrip : Prop :=
  ∀ i : Instr, i.request? ≠ none → i.wf = true → decodeRequest (encodeRequest i) = i

/-! ## Invariants that every step keeps -/

/-- R53: every step keeps the store in its canonical form with every word a 24-bit sample within the 262,144 words. -/
def Obligations.StoreLawIsKept : Prop := KeptByStep State.StoreLaw

/-- R9, R10: every step keeps the capture queue at 16 entries or fewer, each later than the one before it. R20: every step keeps q
within its limit. R184: every step keeps the link's 2 slots and 8 answers. R187: every step keeps a slot free for the request of a
transaction in progress whose verdict is OPEN (request commands that have to wait leave it free: log 4). R195, R196: every step keeps
the positions that hold no flag clear, and their enables off. -/
def Obligations.CaptureRateLinkAndFlagLawsAreKept : Prop :=
  KeptByStep State.CaptureLaw ∧ KeptByStep State.RateLaw ∧ KeptByStep State.LinkLaw ∧ KeptByStep State.FlagLaw

/-- R54, R55, R56: every step keeps every ring's fill at its region's size or less, its reclaim offset within the region, its write
offset at the reclaim offset plus the fill, modulo the region's size, every allocation at the reclaim offset plus the lengths of those
before it in the list, modulo the region's size, so that no two share a word, and its oldest allocation unreleased; that an OFF lane's
ring is empty (R52) is part of the law. R46: every step keeps every lane in a state of its direction's state machine. -/
def Obligations.RingAndStateLawsAreKept : Prop := KeptByStep State.RingLaw ∧ KeptByStep State.StateLaw

/-- R70: every step keeps every lane within its quota and the quotas of the enabled lanes within the pool of 128 frame records. -/
def Obligations.PoolLawIsKept : Prop := KeptByStep State.PoolLaw

/-- Every law holds after cold reset, so that it holds in every state a run reaches. -/
def Obligations.LawsHoldAtReset : Prop :=
  State.reset.StoreLaw ∧ State.reset.CaptureLaw ∧ State.reset.RateLaw ∧ State.reset.LinkLaw ∧ State.reset.FlagLaw ∧
    State.reset.RingLaw ∧ State.reset.PoolLaw ∧ State.reset.StateLaw

end Slice0
end

