-- ==== Sys2Proof/Laws/Lanes.lean ====
section
/-! SUPPORT. What allocating and releasing can do to a lane (R54 to R56, R71, R72): one lemma per shared operation. -/

namespace Sys2Proof.Machine

/-- The words of a list of allocations. -/
def allocWords (l : List Alloc) : Nat := (l.map Alloc.len).sum

theorem fill_eq (l : Lane) : l.fill = allocWords l.allocs := rfl

/-- Reclaiming takes allocations from the oldest end only (R56). -/
theorem reclaimFrom_suffix (size : Nat) (l : List Alloc) (r : Nat) : (reclaimFrom size l r).1 <:+ l := by
  induction l generalizing r with
  | nil => exact List.suffix_rfl
  | cons a rest ih =>
    unfold reclaimFrom
    split
    · exact (ih _).trans (List.suffix_cons a rest)
    · exact List.suffix_rfl

theorem allocWords_suffix {l m : List Alloc} (h : l <:+ m) : allocWords l ≤ allocWords m := by
  obtain ⟨t, rfl⟩ := h
  simp [allocWords]

/-- `m` is `l` after some releases: only the ring's list, its reclaim offset, the queue and the cursor may differ, and the ring's fill
has not grown. -/
structure Released (l m : Lane) : Prop where
  frame : m = { l with allocs := m.allocs, reclaimOffset := m.reclaimOffset, queue := m.queue, cursor := m.cursor }
  fill : m.fill ≤ l.fill
  empty : l.allocs = [] → m.allocs = []

theorem Released.rfl' (l : Lane) : Released l l := ⟨rfl, le_refl _, id⟩

theorem Released.trans {l m n : Lane} (h : Released l m) (k : Released m n) : Released l n := by
  refine ⟨?_, k.fill.trans h.fill, fun e => k.empty (h.empty e)⟩
  rw [k.frame, h.frame]

/-- Releasing one allocation (R56). -/
theorem releaseAlloc_released (l : Lane) (o : Nat) : Released l (l.releaseAlloc o) := by
  have hs := reclaimFrom_suffix l.config.regionSize
    (l.allocs.map (fun a => if a.start = o then { a with released := true } else a)) l.reclaimOffset
  refine ⟨rfl, ?_, ?_⟩
  · rw [fill_eq, fill_eq]
    refine (allocWords_suffix hs).trans (le_of_eq ?_)
    simp only [allocWords, List.map_map]
    congr 1
    apply List.map_congr_left
    intro a _
    simp only [Function.comp]
    split <;> rfl
  · intro h
    simp only [h, List.map_nil] at hs
    simpa only [Lane.releaseAlloc, h, List.map_nil] using List.suffix_nil.mp hs

/-- `releaseAlloc` leaves the queue and the cursor to its caller. -/
@[simp] theorem releaseAlloc_queue (l : Lane) (o : Nat) : (l.releaseAlloc o).queue = l.queue := rfl

/-- Releasing the head (R71): the rest of the queue remains. -/
theorem releaseHead_queue (l : Lane) : l.releaseHead.queue = l.queue.tail := by
  unfold Lane.releaseHead
  split <;> simp_all

theorem releaseHead_released (l : Lane) : Released l l.releaseHead := by
  unfold Lane.releaseHead
  split
  · exact Released.rfl' l
  · rename_i f rest _
    have h := releaseAlloc_released l f.offset
    exact ⟨rfl, h.fill, h.empty⟩

theorem foldl_releaseAlloc_released (fs : List FrameRecord) (l : Lane) :
    Released l (fs.foldl (fun m f => m.releaseAlloc f.offset) l) := by
  induction fs generalizing l with
  | nil => exact Released.rfl' l
  | cons f rest ih => exact (releaseAlloc_released l f.offset).trans (ih _)

/-- Releasing the records a test names (R71, R72): the others remain, in their order. -/
theorem releaseWhere_queue (l : Lane) (p : FrameRecord → Bool) :
    (l.releaseWhere p).queue = l.queue.filter (fun f => !p f) := rfl

theorem releaseWhere_released (l : Lane) (p : FrameRecord → Bool) : Released l (l.releaseWhere p) := by
  have h := foldl_releaseAlloc_released (l.queue.filter p) l
  refine ⟨?_, h.fill, h.empty⟩
  simp only [Lane.releaseWhere]
  rw [h.frame]

/-- A release and the fields of a stop that it neither reads nor writes commute (R71, R94). -/
theorem releaseWhere_stopFields (l : Lane) (p : FrameRecord → Bool) (st : LaneState) (a : Aim) (h : Option Halt)
    (mark : Option SlipMark) :
    ({ l with state := st, aim := a, halt := h, slipMark := mark } : Lane).releaseWhere p =
      { l.releaseWhere p with state := st, aim := a, halt := h, slipMark := mark } := by
  have key : ∀ (fs : List FrameRecord) (x : Lane),
      fs.foldl (fun m f => m.releaseAlloc f.offset) ({ x with state := st, aim := a, halt := h, slipMark := mark } : Lane) =
        { fs.foldl (fun m f => m.releaseAlloc f.offset) x with state := st, aim := a, halt := h, slipMark := mark } := by
    intro fs
    induction fs with
    | nil => exact fun _ => rfl
    | cons f fs ih => exact fun x => ih (x.releaseAlloc f.offset)
  simp only [Lane.releaseWhere, key]

/-- An allocation adds its words to the ring's fill (R55). -/
theorem allocate_fill (l : Lane) (w : Nat) : (l.allocate w).fill = l.fill + w := by
  simp [Lane.allocate, Lane.fill]

/-- The watermark check moves flags alone (R60). -/
theorem watermark_frame (l : Lane) (n : Nat) : l.watermark n = { l with flags := (l.watermark n).flags } := by
  by_cases h : l.config.direction = .play
  · cases hlow : decide (l.config.low ≤ n) && decide (l.buffered < l.config.low) <;>
      cases hhigh : decide (n ≤ l.config.high) && decide (l.config.high < l.buffered) <;>
      simp only [Lane.watermark, h, hlow, hhigh, if_true, Lane.raise, Bool.false_eq_true, if_false]
  · simp only [Lane.watermark, h, if_false]

/-- A buffered count that has not moved crosses no watermark (R60). -/
theorem watermark_same (l : Lane) (n : Nat) (h : l.buffered = n) : l.watermark n = l := by
  have hlow : (decide (l.config.low ≤ n) && decide (l.buffered < l.config.low)) = false := by
    rw [h]
    by_cases k : l.config.low ≤ n
    · rw [decide_eq_false (Nat.not_lt.mpr k), Bool.and_false]
    · rw [decide_eq_false k, Bool.false_and]
  have hhigh : (decide (n ≤ l.config.high) && decide (l.config.high < l.buffered)) = false := by
    rw [h]
    by_cases k : n ≤ l.config.high
    · rw [decide_eq_false (Nat.not_lt.mpr k), Bool.and_false]
    · rw [decide_eq_false k, Bool.false_and]
  simp only [Lane.watermark, hlow, hhigh, Bool.false_eq_true, if_false, ite_self]

/-- The watermark check of a PLAY lane (R60): LOW where the count fell below the low mark, HIGH where it rose above the high one. -/
theorem watermark_eq (l : Lane) (before : Nat) (hd : l.config.direction = .play) :
    l.watermark before =
      { l with
        flags := l.flags ||| (if l.config.low ≤ before ∧ l.buffered < l.config.low then 0x10 else 0)
          ||| (if before ≤ l.config.high ∧ l.config.high < l.buffered then 0x08 else 0) } := by
  unfold Lane.watermark
  rw [if_pos hd]
  simp only [← Bool.decide_and]
  generalize l.buffered = n
  by_cases low : l.config.low ≤ before ∧ n < l.config.low <;> by_cases high : before ≤ l.config.high ∧ l.config.high < n
  all_goals
    simp only [low, high, and_self, decide_true, decide_false, if_true, if_false, Bool.false_eq_true]
    simp [Lane.raise, bitMask, LaneFlag.bit]

/-- A commit releases and rebinds (R66): it touches the ring, the queue, the cursor and the binding. -/
theorem commit_frame (l : Lane) :
    l.commit = { l with
      allocs := l.commit.allocs, reclaimOffset := l.commit.reclaimOffset, queue := l.commit.queue, cursor := l.commit.cursor,
      current := l.commit.current, switch := l.commit.switch } := by
  unfold Lane.commit
  split
  · rfl
  · rename_i sw _
    rw [(releaseWhere_released l (fun f => f.status == .queued && some f.stream == l.current)).frame]

theorem commit_fill (l : Lane) : l.commit.fill ≤ l.fill := by
  unfold Lane.commit
  split
  · exact le_refl _
  · exact (releaseWhere_released l _).fill

end Sys2Proof.Machine
end

