-- ==== Sys2Proof/Laws/State.lean ====
section
/-! SUPPORT. The fields of the part after each named update, and the collections' reads after a write. -/

namespace Sys2Proof.Machine

variable (s : State)

/-! `State.setLane` -/

@[simp] theorem State.setLane_pending (i : LaneId) (l : Lane) : (s.setLane i l).pending = s.pending := rfl
@[simp] theorem State.setLane_running (i : LaneId) (l : Lane) : (s.setLane i l).running = s.running := rfl
@[simp] theorem State.setLane_count (i : LaneId) (l : Lane) : (s.setLane i l).count = s.count := rfl
@[simp] theorem State.setLane_boundaryDue (i : LaneId) (l : Lane) : (s.setLane i l).boundaryDue = s.boundaryDue := rfl
@[simp] theorem State.setLane_periodsDue (i : LaneId) (l : Lane) : (s.setLane i l).periodsDue = s.periodsDue := rfl
@[simp] theorem State.setLane_samples (i : LaneId) (l : Lane) : (s.setLane i l).samples = s.samples := rfl
@[simp] theorem State.setLane_strobe (i : LaneId) (l : Lane) : (s.setLane i l).strobe = s.strobe := rfl
@[simp] theorem State.setLane_tracker (i : LaneId) (l : Lane) : (s.setLane i l).tracker = s.tracker := rfl
@[simp] theorem State.setLane_store (i : LaneId) (l : Lane) : (s.setLane i l).store = s.store := rfl
@[simp] theorem State.setLane_lanes (i : LaneId) (l : Lane) : (s.setLane i l).lanes = s.lanes.set i l := rfl
@[simp] theorem State.setLane_mixer (i : LaneId) (l : Lane) : (s.setLane i l).mixer = s.mixer := rfl
@[simp] theorem State.setLane_ports (i : LaneId) (l : Lane) : (s.setLane i l).ports = s.ports := rfl
@[simp] theorem State.setLane_spc (i : LaneId) (l : Lane) : (s.setLane i l).spc = s.spc := rfl
@[simp] theorem State.setLane_cues (i : LaneId) (l : Lane) : (s.setLane i l).cues = s.cues := rfl
@[simp] theorem State.setLane_lines (i : LaneId) (l : Lane) : (s.setLane i l).lines = s.lines := rfl
@[simp] theorem State.setLane_link (i : LaneId) (l : Lane) : (s.setLane i l).link = s.link := rfl

/-! `State.setLanes` -/

@[simp] theorem State.setLanes_pending (m : LaneMap Lane) : (s.setLanes m).pending = s.pending := rfl
@[simp] theorem State.setLanes_running (m : LaneMap Lane) : (s.setLanes m).running = s.running := rfl
@[simp] theorem State.setLanes_count (m : LaneMap Lane) : (s.setLanes m).count = s.count := rfl
@[simp] theorem State.setLanes_boundaryDue (m : LaneMap Lane) : (s.setLanes m).boundaryDue = s.boundaryDue := rfl
@[simp] theorem State.setLanes_periodsDue (m : LaneMap Lane) : (s.setLanes m).periodsDue = s.periodsDue := rfl
@[simp] theorem State.setLanes_samples (m : LaneMap Lane) : (s.setLanes m).samples = s.samples := rfl
@[simp] theorem State.setLanes_strobe (m : LaneMap Lane) : (s.setLanes m).strobe = s.strobe := rfl
@[simp] theorem State.setLanes_tracker (m : LaneMap Lane) : (s.setLanes m).tracker = s.tracker := rfl
@[simp] theorem State.setLanes_store (m : LaneMap Lane) : (s.setLanes m).store = s.store := rfl
@[simp] theorem State.setLanes_lanes (m : LaneMap Lane) : (s.setLanes m).lanes = m := rfl
@[simp] theorem State.setLanes_mixer (m : LaneMap Lane) : (s.setLanes m).mixer = s.mixer := rfl
@[simp] theorem State.setLanes_ports (m : LaneMap Lane) : (s.setLanes m).ports = s.ports := rfl
@[simp] theorem State.setLanes_spc (m : LaneMap Lane) : (s.setLanes m).spc = s.spc := rfl
@[simp] theorem State.setLanes_cues (m : LaneMap Lane) : (s.setLanes m).cues = s.cues := rfl
@[simp] theorem State.setLanes_lines (m : LaneMap Lane) : (s.setLanes m).lines = s.lines := rfl
@[simp] theorem State.setLanes_link (m : LaneMap Lane) : (s.setLanes m).link = s.link := rfl

/-! `State.setPort` -/

@[simp] theorem State.setPort_pending (p : OutPort) (v : OutPortState) : (s.setPort p v).pending = s.pending := rfl
@[simp] theorem State.setPort_running (p : OutPort) (v : OutPortState) : (s.setPort p v).running = s.running := rfl
@[simp] theorem State.setPort_count (p : OutPort) (v : OutPortState) : (s.setPort p v).count = s.count := rfl
@[simp] theorem State.setPort_boundaryDue (p : OutPort) (v : OutPortState) : (s.setPort p v).boundaryDue = s.boundaryDue := rfl
@[simp] theorem State.setPort_periodsDue (p : OutPort) (v : OutPortState) : (s.setPort p v).periodsDue = s.periodsDue := rfl
@[simp] theorem State.setPort_samples (p : OutPort) (v : OutPortState) : (s.setPort p v).samples = s.samples := rfl
@[simp] theorem State.setPort_strobe (p : OutPort) (v : OutPortState) : (s.setPort p v).strobe = s.strobe := rfl
@[simp] theorem State.setPort_tracker (p : OutPort) (v : OutPortState) : (s.setPort p v).tracker = s.tracker := rfl
@[simp] theorem State.setPort_store (p : OutPort) (v : OutPortState) : (s.setPort p v).store = s.store := rfl
@[simp] theorem State.setPort_lanes (p : OutPort) (v : OutPortState) : (s.setPort p v).lanes = s.lanes := rfl
@[simp] theorem State.setPort_mixer (p : OutPort) (v : OutPortState) : (s.setPort p v).mixer = s.mixer := rfl
@[simp] theorem State.setPort_ports (p : OutPort) (v : OutPortState) : (s.setPort p v).ports = s.ports.set p v := rfl
@[simp] theorem State.setPort_spc (p : OutPort) (v : OutPortState) : (s.setPort p v).spc = s.spc := rfl
@[simp] theorem State.setPort_cues (p : OutPort) (v : OutPortState) : (s.setPort p v).cues = s.cues := rfl
@[simp] theorem State.setPort_lines (p : OutPort) (v : OutPortState) : (s.setPort p v).lines = s.lines := rfl
@[simp] theorem State.setPort_link (p : OutPort) (v : OutPortState) : (s.setPort p v).link = s.link := rfl

/-! `State.setCue` -/

@[simp] theorem State.setCue_pending (c : CueId) (q : Cue) : (s.setCue c q).pending = s.pending := rfl
@[simp] theorem State.setCue_running (c : CueId) (q : Cue) : (s.setCue c q).running = s.running := rfl
@[simp] theorem State.setCue_count (c : CueId) (q : Cue) : (s.setCue c q).count = s.count := rfl
@[simp] theorem State.setCue_boundaryDue (c : CueId) (q : Cue) : (s.setCue c q).boundaryDue = s.boundaryDue := rfl
@[simp] theorem State.setCue_periodsDue (c : CueId) (q : Cue) : (s.setCue c q).periodsDue = s.periodsDue := rfl
@[simp] theorem State.setCue_samples (c : CueId) (q : Cue) : (s.setCue c q).samples = s.samples := rfl
@[simp] theorem State.setCue_strobe (c : CueId) (q : Cue) : (s.setCue c q).strobe = s.strobe := rfl
@[simp] theorem State.setCue_tracker (c : CueId) (q : Cue) : (s.setCue c q).tracker = s.tracker := rfl
@[simp] theorem State.setCue_store (c : CueId) (q : Cue) : (s.setCue c q).store = s.store := rfl
@[simp] theorem State.setCue_lanes (c : CueId) (q : Cue) : (s.setCue c q).lanes = s.lanes := rfl
@[simp] theorem State.setCue_mixer (c : CueId) (q : Cue) : (s.setCue c q).mixer = s.mixer := rfl
@[simp] theorem State.setCue_ports (c : CueId) (q : Cue) : (s.setCue c q).ports = s.ports := rfl
@[simp] theorem State.setCue_spc (c : CueId) (q : Cue) : (s.setCue c q).spc = s.spc := rfl
@[simp] theorem State.setCue_cues (c : CueId) (q : Cue) : (s.setCue c q).cues = s.cues.set c q := rfl
@[simp] theorem State.setCue_lines (c : CueId) (q : Cue) : (s.setCue c q).lines = s.lines := rfl
@[simp] theorem State.setCue_link (c : CueId) (q : Cue) : (s.setCue c q).link = s.link := rfl

/-! `State.setLine` -/

@[simp] theorem State.setLine_pending (i : LineId) (l : Line) : (s.setLine i l).pending = s.pending := rfl
@[simp] theorem State.setLine_running (i : LineId) (l : Line) : (s.setLine i l).running = s.running := rfl
@[simp] theorem State.setLine_count (i : LineId) (l : Line) : (s.setLine i l).count = s.count := rfl
@[simp] theorem State.setLine_boundaryDue (i : LineId) (l : Line) : (s.setLine i l).boundaryDue = s.boundaryDue := rfl
@[simp] theorem State.setLine_periodsDue (i : LineId) (l : Line) : (s.setLine i l).periodsDue = s.periodsDue := rfl
@[simp] theorem State.setLine_samples (i : LineId) (l : Line) : (s.setLine i l).samples = s.samples := rfl
@[simp] theorem State.setLine_strobe (i : LineId) (l : Line) : (s.setLine i l).strobe = s.strobe := rfl
@[simp] theorem State.setLine_tracker (i : LineId) (l : Line) : (s.setLine i l).tracker = s.tracker := rfl
@[simp] theorem State.setLine_store (i : LineId) (l : Line) : (s.setLine i l).store = s.store := rfl
@[simp] theorem State.setLine_lanes (i : LineId) (l : Line) : (s.setLine i l).lanes = s.lanes := rfl
@[simp] theorem State.setLine_mixer (i : LineId) (l : Line) : (s.setLine i l).mixer = s.mixer := rfl
@[simp] theorem State.setLine_ports (i : LineId) (l : Line) : (s.setLine i l).ports = s.ports := rfl
@[simp] theorem State.setLine_spc (i : LineId) (l : Line) : (s.setLine i l).spc = s.spc := rfl
@[simp] theorem State.setLine_cues (i : LineId) (l : Line) : (s.setLine i l).cues = s.cues := rfl
@[simp] theorem State.setLine_lines (i : LineId) (l : Line) : (s.setLine i l).lines = s.lines.set i l := rfl
@[simp] theorem State.setLine_link (i : LineId) (l : Line) : (s.setLine i l).link = s.link := rfl

/-! `State.setTracker` -/

@[simp] theorem State.setTracker_pending (t : Tracker) : (s.setTracker t).pending = s.pending := rfl
@[simp] theorem State.setTracker_running (t : Tracker) : (s.setTracker t).running = s.running := rfl
@[simp] theorem State.setTracker_count (t : Tracker) : (s.setTracker t).count = s.count := rfl
@[simp] theorem State.setTracker_boundaryDue (t : Tracker) : (s.setTracker t).boundaryDue = s.boundaryDue := rfl
@[simp] theorem State.setTracker_periodsDue (t : Tracker) : (s.setTracker t).periodsDue = s.periodsDue := rfl
@[simp] theorem State.setTracker_samples (t : Tracker) : (s.setTracker t).samples = s.samples := rfl
@[simp] theorem State.setTracker_strobe (t : Tracker) : (s.setTracker t).strobe = s.strobe := rfl
@[simp] theorem State.setTracker_tracker (t : Tracker) : (s.setTracker t).tracker = t := rfl
@[simp] theorem State.setTracker_store (t : Tracker) : (s.setTracker t).store = s.store := rfl
@[simp] theorem State.setTracker_lanes (t : Tracker) : (s.setTracker t).lanes = s.lanes := rfl
@[simp] theorem State.setTracker_mixer (t : Tracker) : (s.setTracker t).mixer = s.mixer := rfl
@[simp] theorem State.setTracker_ports (t : Tracker) : (s.setTracker t).ports = s.ports := rfl
@[simp] theorem State.setTracker_spc (t : Tracker) : (s.setTracker t).spc = s.spc := rfl
@[simp] theorem State.setTracker_cues (t : Tracker) : (s.setTracker t).cues = s.cues := rfl
@[simp] theorem State.setTracker_lines (t : Tracker) : (s.setTracker t).lines = s.lines := rfl
@[simp] theorem State.setTracker_link (t : Tracker) : (s.setTracker t).link = s.link := rfl

/-! `State.postAnswer` -/

@[simp] theorem State.postAnswer_pending (a : Answer) : (s.postAnswer a).pending = s.pending := rfl
@[simp] theorem State.postAnswer_running (a : Answer) : (s.postAnswer a).running = s.running := rfl
@[simp] theorem State.postAnswer_count (a : Answer) : (s.postAnswer a).count = s.count := rfl
@[simp] theorem State.postAnswer_boundaryDue (a : Answer) : (s.postAnswer a).boundaryDue = s.boundaryDue := rfl
@[simp] theorem State.postAnswer_periodsDue (a : Answer) : (s.postAnswer a).periodsDue = s.periodsDue := rfl
@[simp] theorem State.postAnswer_samples (a : Answer) : (s.postAnswer a).samples = s.samples := rfl
@[simp] theorem State.postAnswer_strobe (a : Answer) : (s.postAnswer a).strobe = s.strobe := rfl
@[simp] theorem State.postAnswer_tracker (a : Answer) : (s.postAnswer a).tracker = s.tracker := rfl
@[simp] theorem State.postAnswer_store (a : Answer) : (s.postAnswer a).store = s.store := rfl
@[simp] theorem State.postAnswer_lanes (a : Answer) : (s.postAnswer a).lanes = s.lanes := rfl
@[simp] theorem State.postAnswer_mixer (a : Answer) : (s.postAnswer a).mixer = s.mixer := rfl
@[simp] theorem State.postAnswer_ports (a : Answer) : (s.postAnswer a).ports = s.ports := rfl
@[simp] theorem State.postAnswer_spc (a : Answer) : (s.postAnswer a).spc = s.spc := rfl
@[simp] theorem State.postAnswer_cues (a : Answer) : (s.postAnswer a).cues = s.cues := rfl
@[simp] theorem State.postAnswer_lines (a : Answer) : (s.postAnswer a).lines = s.lines := rfl
@[simp] theorem State.postAnswer_link (a : Answer) : (s.postAnswer a).link = { s.link with outbound := s.link.outbound ++ [a] } := rfl

/-! `State.raiseTracker` -/

@[simp] theorem State.raiseTracker_pending (f : TrackerFlag) : (s.raiseTracker f).pending = s.pending := rfl
@[simp] theorem State.raiseTracker_running (f : TrackerFlag) : (s.raiseTracker f).running = s.running := rfl
@[simp] theorem State.raiseTracker_count (f : TrackerFlag) : (s.raiseTracker f).count = s.count := rfl
@[simp] theorem State.raiseTracker_boundaryDue (f : TrackerFlag) : (s.raiseTracker f).boundaryDue = s.boundaryDue := rfl
@[simp] theorem State.raiseTracker_periodsDue (f : TrackerFlag) : (s.raiseTracker f).periodsDue = s.periodsDue := rfl
@[simp] theorem State.raiseTracker_samples (f : TrackerFlag) : (s.raiseTracker f).samples = s.samples := rfl
@[simp] theorem State.raiseTracker_strobe (f : TrackerFlag) : (s.raiseTracker f).strobe = s.strobe := rfl
@[simp] theorem State.raiseTracker_tracker (f : TrackerFlag) : (s.raiseTracker f).tracker = s.tracker := rfl
@[simp] theorem State.raiseTracker_store (f : TrackerFlag) : (s.raiseTracker f).store = s.store := rfl
@[simp] theorem State.raiseTracker_lanes (f : TrackerFlag) : (s.raiseTracker f).lanes = s.lanes := rfl
@[simp] theorem State.raiseTracker_mixer (f : TrackerFlag) : (s.raiseTracker f).mixer = s.mixer := rfl
@[simp] theorem State.raiseTracker_ports (f : TrackerFlag) : (s.raiseTracker f).ports = s.ports := rfl
@[simp] theorem State.raiseTracker_spc (f : TrackerFlag) : (s.raiseTracker f).spc = s.spc := rfl
@[simp] theorem State.raiseTracker_cues (f : TrackerFlag) : (s.raiseTracker f).cues = s.cues := rfl
@[simp] theorem State.raiseTracker_lines (f : TrackerFlag) : (s.raiseTracker f).lines = s.lines := rfl
@[simp] theorem State.raiseTracker_link (f : TrackerFlag) : (s.raiseTracker f).link = { s.link with trackerFlags := s.link.trackerFlags ||| bitMask f.bit } := rfl

/-! `State.raisePort` -/

@[simp] theorem State.raisePort_pending (f : PortFlag) : (s.raisePort f).pending = s.pending := rfl
@[simp] theorem State.raisePort_running (f : PortFlag) : (s.raisePort f).running = s.running := rfl
@[simp] theorem State.raisePort_count (f : PortFlag) : (s.raisePort f).count = s.count := rfl
@[simp] theorem State.raisePort_boundaryDue (f : PortFlag) : (s.raisePort f).boundaryDue = s.boundaryDue := rfl
@[simp] theorem State.raisePort_periodsDue (f : PortFlag) : (s.raisePort f).periodsDue = s.periodsDue := rfl
@[simp] theorem State.raisePort_samples (f : PortFlag) : (s.raisePort f).samples = s.samples := rfl
@[simp] theorem State.raisePort_strobe (f : PortFlag) : (s.raisePort f).strobe = s.strobe := rfl
@[simp] theorem State.raisePort_tracker (f : PortFlag) : (s.raisePort f).tracker = s.tracker := rfl
@[simp] theorem State.raisePort_store (f : PortFlag) : (s.raisePort f).store = s.store := rfl
@[simp] theorem State.raisePort_lanes (f : PortFlag) : (s.raisePort f).lanes = s.lanes := rfl
@[simp] theorem State.raisePort_mixer (f : PortFlag) : (s.raisePort f).mixer = s.mixer := rfl
@[simp] theorem State.raisePort_ports (f : PortFlag) : (s.raisePort f).ports = s.ports := rfl
@[simp] theorem State.raisePort_spc (f : PortFlag) : (s.raisePort f).spc = s.spc := rfl
@[simp] theorem State.raisePort_cues (f : PortFlag) : (s.raisePort f).cues = s.cues := rfl
@[simp] theorem State.raisePort_lines (f : PortFlag) : (s.raisePort f).lines = s.lines := rfl
@[simp] theorem State.raisePort_link (f : PortFlag) : (s.raisePort f).link = { s.link with portFlags := s.link.portFlags ||| bitMask f.bit } := rfl

/-! `State.raiseCue` -/

@[simp] theorem State.raiseCue_pending (f : CueFlag) : (s.raiseCue f).pending = s.pending := rfl
@[simp] theorem State.raiseCue_running (f : CueFlag) : (s.raiseCue f).running = s.running := rfl
@[simp] theorem State.raiseCue_count (f : CueFlag) : (s.raiseCue f).count = s.count := rfl
@[simp] theorem State.raiseCue_boundaryDue (f : CueFlag) : (s.raiseCue f).boundaryDue = s.boundaryDue := rfl
@[simp] theorem State.raiseCue_periodsDue (f : CueFlag) : (s.raiseCue f).periodsDue = s.periodsDue := rfl
@[simp] theorem State.raiseCue_samples (f : CueFlag) : (s.raiseCue f).samples = s.samples := rfl
@[simp] theorem State.raiseCue_strobe (f : CueFlag) : (s.raiseCue f).strobe = s.strobe := rfl
@[simp] theorem State.raiseCue_tracker (f : CueFlag) : (s.raiseCue f).tracker = s.tracker := rfl
@[simp] theorem State.raiseCue_store (f : CueFlag) : (s.raiseCue f).store = s.store := rfl
@[simp] theorem State.raiseCue_lanes (f : CueFlag) : (s.raiseCue f).lanes = s.lanes := rfl
@[simp] theorem State.raiseCue_mixer (f : CueFlag) : (s.raiseCue f).mixer = s.mixer := rfl
@[simp] theorem State.raiseCue_ports (f : CueFlag) : (s.raiseCue f).ports = s.ports := rfl
@[simp] theorem State.raiseCue_spc (f : CueFlag) : (s.raiseCue f).spc = s.spc := rfl
@[simp] theorem State.raiseCue_cues (f : CueFlag) : (s.raiseCue f).cues = s.cues := rfl
@[simp] theorem State.raiseCue_lines (f : CueFlag) : (s.raiseCue f).lines = s.lines := rfl
@[simp] theorem State.raiseCue_link (f : CueFlag) : (s.raiseCue f).link = { s.link with cueFlags := s.link.cueFlags ||| bitMask f.bit } := rfl

/-! `State.sampled` -/

@[simp] theorem State.sampled_pending : (s.sampled).pending = s.pending := rfl
@[simp] theorem State.sampled_running : (s.sampled).running = s.running := rfl
@[simp] theorem State.sampled_count : (s.sampled).count = s.count := rfl
@[simp] theorem State.sampled_boundaryDue : (s.sampled).boundaryDue = s.boundaryDue := rfl
@[simp] theorem State.sampled_periodsDue : (s.sampled).periodsDue = s.periodsDue := rfl
@[simp] theorem State.sampled_samples : (s.sampled).samples = s.samples + 1 := rfl
@[simp] theorem State.sampled_strobe : (s.sampled).strobe = s.strobe := rfl
@[simp] theorem State.sampled_tracker : (s.sampled).tracker = s.tracker := rfl
@[simp] theorem State.sampled_store : (s.sampled).store = s.store := rfl
@[simp] theorem State.sampled_lanes : (s.sampled).lanes = s.lanes := rfl
@[simp] theorem State.sampled_mixer : (s.sampled).mixer = s.mixer := rfl
@[simp] theorem State.sampled_ports : (s.sampled).ports = s.ports := rfl
@[simp] theorem State.sampled_spc : (s.sampled).spc = s.spc := rfl
@[simp] theorem State.sampled_cues : (s.sampled).cues = s.cues := rfl
@[simp] theorem State.sampled_lines : (s.sampled).lines = s.lines := rfl
@[simp] theorem State.sampled_link : (s.sampled).link = s.link := rfl

/-! `State.withInbound` -/

@[simp] theorem State.withInbound_pending (r : List RawRequest) : (s.withInbound r).pending = s.pending := rfl
@[simp] theorem State.withInbound_running (r : List RawRequest) : (s.withInbound r).running = s.running := rfl
@[simp] theorem State.withInbound_count (r : List RawRequest) : (s.withInbound r).count = s.count := rfl
@[simp] theorem State.withInbound_boundaryDue (r : List RawRequest) : (s.withInbound r).boundaryDue = s.boundaryDue := rfl
@[simp] theorem State.withInbound_periodsDue (r : List RawRequest) : (s.withInbound r).periodsDue = s.periodsDue := rfl
@[simp] theorem State.withInbound_samples (r : List RawRequest) : (s.withInbound r).samples = s.samples := rfl
@[simp] theorem State.withInbound_strobe (r : List RawRequest) : (s.withInbound r).strobe = s.strobe := rfl
@[simp] theorem State.withInbound_tracker (r : List RawRequest) : (s.withInbound r).tracker = s.tracker := rfl
@[simp] theorem State.withInbound_store (r : List RawRequest) : (s.withInbound r).store = s.store := rfl
@[simp] theorem State.withInbound_lanes (r : List RawRequest) : (s.withInbound r).lanes = s.lanes := rfl
@[simp] theorem State.withInbound_mixer (r : List RawRequest) : (s.withInbound r).mixer = s.mixer := rfl
@[simp] theorem State.withInbound_ports (r : List RawRequest) : (s.withInbound r).ports = s.ports := rfl
@[simp] theorem State.withInbound_spc (r : List RawRequest) : (s.withInbound r).spc = s.spc := rfl
@[simp] theorem State.withInbound_cues (r : List RawRequest) : (s.withInbound r).cues = s.cues := rfl
@[simp] theorem State.withInbound_lines (r : List RawRequest) : (s.withInbound r).lines = s.lines := rfl
@[simp] theorem State.withInbound_link (r : List RawRequest) : (s.withInbound r).link = { s.link with inbound := r } := rfl

/-! `State.purge` -/

@[simp] theorem State.purge_pending : (s.purge).pending = s.pending := rfl
@[simp] theorem State.purge_running : (s.purge).running = s.running := rfl
@[simp] theorem State.purge_count : (s.purge).count = s.count := rfl
@[simp] theorem State.purge_boundaryDue : (s.purge).boundaryDue = s.boundaryDue := rfl
@[simp] theorem State.purge_periodsDue : (s.purge).periodsDue = s.periodsDue := rfl
@[simp] theorem State.purge_samples : (s.purge).samples = s.samples := rfl
@[simp] theorem State.purge_strobe : (s.purge).strobe = s.strobe := rfl
@[simp] theorem State.purge_tracker : (s.purge).tracker = s.tracker := rfl
@[simp] theorem State.purge_store : (s.purge).store = s.store := rfl
@[simp] theorem State.purge_lanes : (s.purge).lanes = s.lanes.mapId (fun _ l => l.purge s.tracker.epoch s.tracker.candidate) := rfl
@[simp] theorem State.purge_mixer : (s.purge).mixer = s.mixer := rfl
@[simp] theorem State.purge_ports : (s.purge).ports = s.ports := rfl
@[simp] theorem State.purge_spc : (s.purge).spc = s.spc := rfl
@[simp] theorem State.purge_cues : (s.purge).cues = s.cues := rfl
@[simp] theorem State.purge_lines : (s.purge).lines = s.lines := rfl
@[simp] theorem State.purge_link : (s.purge).link = s.link := rfl

/-! Collections -/

/-! `State.advanceCount` -/

@[simp] theorem State.advanceCount_count : s.advanceCount.count = s.count + 1 := rfl
@[simp] theorem State.advanceCount_boundaryDue : s.advanceCount.boundaryDue = onGrid (s.count + 1) Config.blockTicks := rfl
@[simp] theorem State.advanceCount_periodsDue : s.advanceCount.periodsDue = onGrid (s.count + 1) Config.blockTicks := rfl
@[simp] theorem State.advanceCount_spc :
    s.advanceCount.spc = { s.spc with selectTaken := false, clockTaken := false } := rfl
@[simp] theorem State.advanceCount_pending : s.advanceCount.pending = s.pending := rfl
@[simp] theorem State.advanceCount_samples : s.advanceCount.samples = s.samples := rfl
@[simp] theorem State.advanceCount_running : s.advanceCount.running = s.running := rfl
@[simp] theorem State.advanceCount_strobe : s.advanceCount.strobe = s.strobe := rfl
@[simp] theorem State.advanceCount_tracker : s.advanceCount.tracker = s.tracker := rfl
@[simp] theorem State.advanceCount_store : s.advanceCount.store = s.store := rfl
@[simp] theorem State.advanceCount_lanes : s.advanceCount.lanes = s.lanes := rfl
@[simp] theorem State.advanceCount_mixer : s.advanceCount.mixer = s.mixer := rfl
@[simp] theorem State.advanceCount_ports : s.advanceCount.ports = s.ports := rfl
@[simp] theorem State.advanceCount_cues : s.advanceCount.cues = s.cues := rfl
@[simp] theorem State.advanceCount_lines : s.advanceCount.lines = s.lines := rfl
@[simp] theorem State.advanceCount_link : s.advanceCount.link = s.link := rfl

/-! `State.queuePeriods` -/

@[simp] theorem State.queuePeriods_pending : s.queuePeriods.pending = s.pending ++ s.periodEvents := rfl
@[simp] theorem State.queuePeriods_periodsDue : s.queuePeriods.periodsDue = false := rfl
@[simp] theorem State.queuePeriods_running : s.queuePeriods.running = s.running := rfl
@[simp] theorem State.queuePeriods_count : s.queuePeriods.count = s.count := rfl
@[simp] theorem State.queuePeriods_boundaryDue : s.queuePeriods.boundaryDue = s.boundaryDue := rfl
@[simp] theorem State.queuePeriods_samples : s.queuePeriods.samples = s.samples := rfl
@[simp] theorem State.queuePeriods_strobe : s.queuePeriods.strobe = s.strobe := rfl
@[simp] theorem State.queuePeriods_tracker : s.queuePeriods.tracker = s.tracker := rfl
@[simp] theorem State.queuePeriods_store : s.queuePeriods.store = s.store := rfl
@[simp] theorem State.queuePeriods_lanes : s.queuePeriods.lanes = s.lanes := rfl
@[simp] theorem State.queuePeriods_mixer : s.queuePeriods.mixer = s.mixer := rfl
@[simp] theorem State.queuePeriods_ports : s.queuePeriods.ports = s.ports := rfl
@[simp] theorem State.queuePeriods_spc : s.queuePeriods.spc = s.spc := rfl
@[simp] theorem State.queuePeriods_cues : s.queuePeriods.cues = s.cues := rfl
@[simp] theorem State.queuePeriods_lines : s.queuePeriods.lines = s.lines := rfl
@[simp] theorem State.queuePeriods_link : s.queuePeriods.link = s.link := rfl

/-! `InPortState.openingEdge` -/

@[simp] theorem InPortState.openingEdge_format (p : InPortState) (t : Time) : (p.openingEdge t).format = p.format := rfl
@[simp] theorem InPortState.openingEdge_mode (p : InPortState) (t : Time) : (p.openingEdge t).mode = p.mode := rfl
@[simp] theorem InPortState.openingEdge_inForce (p : InPortState) (t : Time) : (p.openingEdge t).inForce = p.inForce := rfl
@[simp] theorem InPortState.openingEdge_modeInForce (p : InPortState) (t : Time) : (p.openingEdge t).modeInForce =
    p.modeInForce := rfl
@[simp] theorem InPortState.openingEdge_assembly (p : InPortState) (t : Time) : (p.openingEdge t).assembly =
    some (openAssembly t p.inForce) := rfl
@[simp] theorem InPortState.openingEdge_watch (p : InPortState) (t : Time) : (p.openingEdge t).watch = p.watch.edge t := rfl
@[simp] theorem InPortState.openingEdge_selectLevel (p : InPortState) (t : Time) : (p.openingEdge t).selectLevel =
    some p.leftLevel := rfl
@[simp] theorem InPortState.openingEdge_selectTaken (p : InPortState) (t : Time) : (p.openingEdge t).selectTaken = true := rfl
@[simp] theorem InPortState.openingEdge_clockTaken (p : InPortState) (t : Time) : (p.openingEdge t).clockTaken =
    p.clockTaken := rfl

/-! `InPortState.boundaryWork` -/

@[simp] theorem InPortState.boundaryWork_format (p : InPortState) : p.boundaryWork.format = p.format := rfl
@[simp] theorem InPortState.boundaryWork_mode (p : InPortState) : p.boundaryWork.mode = p.mode := rfl
@[simp] theorem InPortState.boundaryWork_inForce (p : InPortState) : p.boundaryWork.inForce = p.format := rfl
@[simp] theorem InPortState.boundaryWork_modeInForce (p : InPortState) : p.boundaryWork.modeInForce = p.mode := rfl
@[simp] theorem InPortState.boundaryWork_assembly (p : InPortState) : p.boundaryWork.assembly =
    if p.format.enable then p.keptAssembly else none := rfl
@[simp] theorem InPortState.boundaryWork_watch (p : InPortState) : p.boundaryWork.watch = p.watch := rfl
@[simp] theorem InPortState.boundaryWork_selectLevel (p : InPortState) : p.boundaryWork.selectLevel =
    if p.sameDrive then p.selectLevel else none := rfl
@[simp] theorem InPortState.boundaryWork_selectTaken (p : InPortState) : p.boundaryWork.selectTaken =
    if p.sameDrive then p.selectTaken else p.format.enable && p.openedNow := rfl
@[simp] theorem InPortState.boundaryWork_clockTaken (p : InPortState) : p.boundaryWork.clockTaken = p.clockTaken := rfl

/-- A collection's value at the place just written is the value written. -/
@[simp] theorem LaneMap.get_set_same {α : Type} (m : LaneMap α) (i : LaneId) (v : α) : (m.set i v).get i = v := by
  cases i <;> rfl

/-- A write at one place leaves every other place. -/
@[simp] theorem LaneMap.get_set_other {α : Type} (m : LaneMap α) {i j : LaneId} (v : α) (h : j ≠ i) : (m.set i v).get j = m.get j := by
  cases i <;> cases j <;> first | rfl | exact absurd rfl h

/-- A collection's value at the place just written is the value written. -/
@[simp] theorem LineMap.get_set_same {α : Type} (m : LineMap α) (i : LineId) (v : α) : (m.set i v).get i = v := by
  cases i <;> rfl

/-- A write at one place leaves every other place. -/
@[simp] theorem LineMap.get_set_other {α : Type} (m : LineMap α) {i j : LineId} (v : α) (h : j ≠ i) : (m.set i v).get j = m.get j := by
  cases i <;> cases j <;> first | rfl | exact absurd rfl h

/-- A collection's value at the place just written is the value written. -/
@[simp] theorem CueMap.get_set_same {α : Type} (m : CueMap α) (i : CueId) (v : α) : (m.set i v).get i = v := by
  cases i <;> rfl

/-- A write at one place leaves every other place. -/
@[simp] theorem CueMap.get_set_other {α : Type} (m : CueMap α) {i j : CueId} (v : α) (h : j ≠ i) : (m.set i v).get j = m.get j := by
  cases i <;> cases j <;> first | rfl | exact absurd rfl h

/-- A collection's value at the place just written is the value written. -/
@[simp] theorem PortPair.get_set_same {α : Type} (m : PortPair α) (i : OutPort) (v : α) : (m.set i v).get i = v := by
  cases i <;> rfl

/-- A write at one place leaves every other place. -/
@[simp] theorem PortPair.get_set_other {α : Type} (m : PortPair α) {i j : OutPort} (v : α) (h : j ≠ i) : (m.set i v).get j = m.get j := by
  cases i <;> cases j <;> first | rfl | exact absurd rfl h

/-- A lane's value in a mapped collection. -/
@[simp] theorem LaneMap.get_mapId {α β : Type} (f : LaneId → α → β) (m : LaneMap α) (i : LaneId) :
    (m.mapId f).get i = f i (m.get i) := by
  cases i <;> rfl

/-- A collection with one value everywhere has that value at every place. -/
@[simp] theorem LaneMap.get_all {α : Type} (v : α) (i : LaneId) : (LaneMap.all v).get i = v := by
  cases i <;> rfl

end Sys2Proof.Machine
end

