-- ==== Sys2Proof/Laws/Boundary.lean ====
section
/-! SUPPORT. What a block boundary leaves unchanged: the parts of the state that no block's work writes (R4, R141, R169), and what
a port's waiting blocks give a sample period (R146). -/

namespace Sys2Proof.Machine

/-- `t` agrees with `s` in every part of the state that neither the mixer, the ports, the cues nor a lane's list of pending cue actions
and flags belong to. -/
structure SamePart (s t : State) : Prop where
  pending : t.pending = s.pending
  running : t.running = s.running
  count : t.count = s.count
  boundaryDue : t.boundaryDue = s.boundaryDue
  periodsDue : t.periodsDue = s.periodsDue
  samples : t.samples = s.samples
  strobe : t.strobe = s.strobe
  tracker : t.tracker = s.tracker
  store : t.store = s.store
  lines : t.lines = s.lines
  inbound : t.link.inbound = s.link.inbound
  outbound : t.link.outbound = s.link.outbound
  transaction : t.link.transaction = s.link.transaction
  trackerFlags : t.link.trackerFlags = s.link.trackerFlags
  enables : t.link.enables = s.link.enables

theorem SamePart.refl (s : State) : SamePart s s := ⟨rfl, rfl, rfl, rfl, rfl, rfl, rfl, rfl, rfl, rfl, rfl, rfl, rfl, rfl, rfl⟩

theorem SamePart.trans {s t u : State} (h : SamePart s t) (k : SamePart t u) : SamePart s u :=
  ⟨k.pending.trans h.pending, k.running.trans h.running, k.count.trans h.count, k.boundaryDue.trans h.boundaryDue,
    k.periodsDue.trans h.periodsDue, k.samples.trans h.samples, k.strobe.trans h.strobe, k.tracker.trans h.tracker, k.store.trans h.store,
    k.lines.trans h.lines, k.inbound.trans h.inbound, k.outbound.trans h.outbound, k.transaction.trans h.transaction,
    k.trackerFlags.trans h.trackerFlags, k.enables.trans h.enables⟩

/-- What the cues' work keeps besides: the ports, and of every lane all but its pending actions (R174). -/
structure CueFrame (s t : State) : Prop where
  part : SamePart s t
  ports : t.ports = s.ports
  spc : t.spc = s.spc
  portFlags : t.link.portFlags = s.link.portFlags
  lanes : ∀ i, t.lanes.get i = { s.lanes.get i with actions := (t.lanes.get i).actions }

theorem CueFrame.refl (s : State) : CueFrame s s := ⟨SamePart.refl s, rfl, rfl, rfl, fun _ => rfl⟩

theorem CueFrame.trans {s t u : State} (h : CueFrame s t) (k : CueFrame t u) : CueFrame s u :=
  ⟨h.part.trans k.part, k.ports.trans h.ports, k.spc.trans h.spc, k.portFlags.trans h.portFlags,
    fun i => by rw [k.lanes i, h.lanes i]⟩

theorem setCue_frame (s : State) (c : CueId) (q : Cue) : CueFrame s (s.setCue c q) :=
  ⟨⟨rfl, rfl, rfl, rfl, rfl, rfl, rfl, rfl, rfl, rfl, rfl, rfl, rfl, rfl, rfl⟩, rfl, rfl, rfl, fun _ => rfl⟩

theorem handToLane_frame (s : State) (i : LaneId) (a : LaneAction) : CueFrame s (s.handToLane i a) := by
  refine ⟨⟨rfl, rfl, rfl, rfl, rfl, rfl, rfl, rfl, rfl, rfl, rfl, rfl, rfl, rfl, rfl⟩, rfl, rfl, rfl, fun j => ?_⟩
  by_cases h : j = i
  · subst h
    simp [State.handToLane]
  · simp [State.handToLane, LaneMap.get_set_other _ _ h]

theorem handOver_frame (s : State) (c : CueId) (k : BlockIndex) (a : CueAction) : CueFrame s (s.handOver c k a) := by
  cases a with
  | none => exact CueFrame.refl s
  | go i => exact handToLane_frame s i _
  | halt i flush => exact handToLane_frame s i _
  | gain i p g r =>
    exact ⟨⟨rfl, rfl, rfl, rfl, rfl, rfl, rfl, rfl, rfl, rfl, rfl, rfl, rfl, rfl, rfl⟩, rfl, rfl, rfl, fun _ => rfl⟩

theorem raiseCue_frame (s : State) (f : CueFlag) : CueFrame s (s.raiseCue f) :=
  ⟨⟨rfl, rfl, rfl, rfl, rfl, rfl, rfl, rfl, rfl, rfl, rfl, rfl, rfl, rfl, rfl⟩, rfl, rfl, rfl, fun _ => rfl⟩

theorem raiseCues_frame (fs : List CueFlag) (s : State) : CueFrame s (s.raiseCues fs) := by
  induction fs generalizing s with
  | nil => exact CueFrame.refl s
  | cons f rest ih => exact (raiseCue_frame s f).trans (ih _)

theorem cueWork_frame (k : BlockIndex) (o : List (CueId × Bool)) (s : State) (c : CueId) : CueFrame s (s.cueWork k o c) :=
  ((setCue_frame s c _).trans (handOver_frame _ c k _)).trans (raiseCues_frame _ _)

/-- The four cues' work (R169). -/
theorem cuesWork_frame (s : State) (k : BlockIndex) (o : List (CueId × Bool)) : CueFrame s (s.cuesWork k o) :=
  (((cueWork_frame k o s .cue0).trans (cueWork_frame k o _ .cue1)).trans (cueWork_frame k o _ .cue2)).trans
    (cueWork_frame k o _ .cue3)

theorem clipWork_part (s : State) (p : OutPort) (b : LaneMap Block) : SamePart s (s.clipWork p b) := by
  simp only [State.clipWork]
  split <;> exact ⟨rfl, rfl, rfl, rfl, rfl, rfl, rfl, rfl, rfl, rfl, rfl, rfl, rfl, rfl, rfl⟩

@[simp] theorem clipWork_lanes (s : State) (p : OutPort) (b : LaneMap Block) : (s.clipWork p b).lanes = s.lanes := by
  simp only [State.clipWork]
  split <;> rfl

@[simp] theorem clipWork_ports (s : State) (p : OutPort) (b : LaneMap Block) : (s.clipWork p b).ports = s.ports := by
  simp only [State.clipWork]
  split <;> rfl

@[simp] theorem clipWork_spc (s : State) (p : OutPort) (b : LaneMap Block) : (s.clipWork p b).spc = s.spc := by
  simp only [State.clipWork]
  split <;> rfl

theorem mixerWork_part (s : State) : SamePart s s.mixerWork :=
  ⟨rfl, rfl, rfl, rfl, rfl, rfl, rfl, rfl, rfl, rfl, rfl, rfl, rfl, rfl, rfl⟩

theorem outPortWork_part (s : State) (p : OutPort) (b : LaneMap Block) : SamePart s (s.outPortWork p b) :=
  ⟨rfl, rfl, rfl, rfl, rfl, rfl, rfl, rfl, rfl, rfl, rfl, rfl, rfl, rfl, rfl⟩

theorem inPortWork_part (s : State) (e : Bool) : SamePart s (s.inPortWork e) :=
  ⟨rfl, rfl, rfl, rfl, rfl, rfl, rfl, rfl, rfl, rfl, rfl, rfl, rfl, rfl, rfl⟩

@[simp] theorem mixerWork_lanes (s : State) : s.mixerWork.lanes = s.lanes := rfl
@[simp] theorem outPortWork_lanes (s : State) (p : OutPort) (b : LaneMap Block) : (s.outPortWork p b).lanes = s.lanes := rfl
@[simp] theorem inPortWork_lanes (s : State) (e : Bool) : (s.inPortWork e).lanes = s.lanes := rfl

/-- The mixer's and the ports' work keeps the part's other blocks and every lane (R141, R146, R149). -/
theorem outputWork_part (s : State) (b : LaneMap Block) (e : Bool) : SamePart s (s.outputWork b e) :=
  (((((mixerWork_part s).trans (clipWork_part _ .spa b)).trans (clipWork_part _ .spb b)).trans (outPortWork_part _ .spa b)).trans
    (outPortWork_part _ .spb b)).trans (inPortWork_part _ e)

theorem outputWork_lanes (s : State) (b : LaneMap Block) (e : Bool) : (s.outputWork b e).lanes = s.lanes := by
  simp only [State.outputWork, inPortWork_lanes, outPortWork_lanes, clipWork_lanes, mixerWork_lanes]

theorem setLanes_part (s : State) (m : LaneMap Lane) : SamePart s (s.setLanes m) :=
  ⟨rfl, rfl, rfl, rfl, rfl, rfl, rfl, rfl, rfl, rfl, rfl, rfl, rfl, rfl, rfl⟩

/-- Everything a boundary leaves unchanged, but for the mark that it has been taken. -/
theorem boundaryWork_part (s : State) : SamePart { s with boundaryDue := false } s.boundaryWork := by
  unfold State.boundaryWork
  exact ((setLanes_part _ _).trans (outputWork_part _ _ _)).trans (cuesWork_frame _ _ _).part

/-- A lane after a boundary is the lane its own work left, but for the actions the cues then handed it (R87, R174). -/
theorem boundaryWork_lane (s : State) (i : LaneId) :
    s.boundaryWork.lanes.get i =
      { ((s.lanes.get i).boundaryWork s.boundaryEnv).lane with actions := (s.boundaryWork.lanes.get i).actions } := by
  have h := (cuesWork_frame (({ s with boundaryDue := false }.setLanes (workedLanes s.lanesWork)).outputWork
    (workedBlocks s.lanesWork) (runEntered s.lanes (workedLanes s.lanesWork))) s.boundaryIndex (boundaryOutcomes s.lanesWork s.mixer s.boundaryIndex)).lanes i
  rw [outputWork_lanes, State.setLanes_lanes, workedLanes, State.lanesWork, LaneMap.get_mapId, LaneMap.get_mapId] at h
  exact h

/-- Blocks that have not begun give a period no pair (R146, R147). -/
theorem emissionPair_waiting (t : Time) (blocks : List EmissionBlock) (h : ∀ e ∈ blocks, sdiff t e.begins < 0) :
    emissionPair t blocks = (0, 0) := by
  induction blocks with
  | nil => rfl
  | cons e rest ih =>
    have hn : e.position? t = none := if_neg fun q => absurd q.1 (not_le.mpr (h e (.head _)))
    simp only [emissionPair, hn]
    exact ih fun e he => h e (.tail _ he)

end Sys2Proof.Machine
end

