-- ==== Sys2Proof/Laws/Encoding.lean ====
section
/-! SUPPORT. The big-endian fields of the link (R200): reading a field that was written gives it back with the bytes behind it; and the
framing of a request of the type's length (R190). -/

namespace Sys2Proof

/-- A field within a field of a word is a field of the word. -/
theorem extract_extract {w : Nat} (v : BitVec w) (a n b m : Nat) (h : b + m ≤ n) :
    (v.extractLsb' a n).extractLsb' b m = v.extractLsb' (a + b) m := by
  apply BitVec.eq_of_getLsbD_eq
  intro i hi
  simp only [BitVec.getLsbD_extractLsb', hi, decide_true, Bool.true_and, show b + i < n by omega, Nat.add_assoc]

theorem get8_put8 (v : Byte) (l : List Byte) : get8 (put8 v ++ l) = (v, l) := rfl

theorem get16_put16 (v : BitVec 16) (l : List Byte) : get16 (put16 v ++ l) = (v, l) := by
  simp only [put16, get16, get8, List.cons_append, List.nil_append]
  congr 1
  apply BitVec.eq_of_getLsbD_eq
  intro i hi
  rw [BitVec.getLsbD_append]
  by_cases h : i < 8
  · simp [h, BitVec.getLsbD_extractLsb', -BitVec.getLsbD_eq_getElem]
  · simp [h, BitVec.getLsbD_extractLsb', -BitVec.getLsbD_eq_getElem, show i - 8 < 8 by omega, show 8 + (i - 8) = i by omega]

theorem get32_put32 (v : BitVec 32) (l : List Byte) : get32 (put32 v ++ l) = (v, l) := by
  have e : put32 v ++ l = put16 (v.extractLsb' 16 16) ++ (put16 (v.extractLsb' 0 16) ++ l) := by
    simp only [put32, put16, List.cons_append, List.nil_append, List.cons.injEq, and_true]
    simp [extract_extract]
  rw [e]
  simp only [get32, get16_put16]
  congr 1
  apply BitVec.eq_of_getLsbD_eq
  intro i hi
  rw [BitVec.getLsbD_append]
  by_cases h : i < 16
  · simp [h, BitVec.getLsbD_extractLsb', -BitVec.getLsbD_eq_getElem]
  · simp [h, BitVec.getLsbD_extractLsb', -BitVec.getLsbD_eq_getElem, show i - 16 < 16 by omega, show 16 + (i - 16) = i by omega]

theorem get48_put48 (v : BitVec 48) (l : List Byte) : get48 (put48 v ++ l) = (v, l) := by
  have e : put48 v ++ l = put16 (v.extractLsb' 32 16) ++ (put32 (v.extractLsb' 0 32) ++ l) := by
    simp only [put48, put16, put32, List.cons_append, List.nil_append, List.cons.injEq, and_true]
    simp [extract_extract]
  rw [e]
  simp only [get48, get16_put16, get32_put32]
  congr 1
  apply BitVec.eq_of_getLsbD_eq
  intro i hi
  rw [BitVec.getLsbD_append]
  by_cases h : i < 32
  · simp [h, BitVec.getLsbD_extractLsb', -BitVec.getLsbD_eq_getElem]
  · simp [h, BitVec.getLsbD_extractLsb', -BitVec.getLsbD_eq_getElem, show i - 32 < 16 by omega, show 32 + (i - 32) = i by omega]

theorem get72_put72 (v : BitVec 72) (l : List Byte) : get72 (put72 v ++ l) = (v, l) := by
  have e : put72 v ++ l =
      put8 (v.extractLsb' 64 8) ++ (put32 (v.extractLsb' 32 32) ++ (put32 (v.extractLsb' 0 32) ++ l)) := by
    simp only [put72, put8, put32, List.cons_append, List.nil_append, List.cons.injEq, and_true, true_and]
    simp [extract_extract]
  rw [e]
  simp only [get72, get8_put8, get32_put32]
  congr 1
  apply BitVec.eq_of_getLsbD_eq
  intro i hi
  rw [BitVec.getLsbD_append, BitVec.getLsbD_append]
  by_cases h : i < 32
  · simp [h, show i < 64 by omega, BitVec.getLsbD_extractLsb', -BitVec.getLsbD_eq_getElem]
  · by_cases h2 : i < 64
    · simp [h, h2, BitVec.getLsbD_extractLsb', -BitVec.getLsbD_eq_getElem, show i - 32 < 32 by omega,
        show 32 + (i - 32) = i by omega]
    · simp [h2, BitVec.getLsbD_extractLsb', -BitVec.getLsbD_eq_getElem, show i - 64 < 8 by omega,
        show 64 + (i - 64) = i by omega]

@[simp] theorem put8_length (v : Byte) : (put8 v).length = 1 := rfl
@[simp] theorem put16_length (v : BitVec 16) : (put16 v).length = 2 := rfl
@[simp] theorem put32_length (v : BitVec 32) : (put32 v).length = 4 := rfl
@[simp] theorem put48_length (v : BitVec 48) : (put48 v).length = 6 := rfl
@[simp] theorem put72_length (v : BitVec 72) : (put72 v).length = 9 := rfl

theorem ReqType.ofCode_code (t : ReqType) : ReqType.ofCode t.code = some t := by cases t <;> rfl

theorem ReqType.code_ofCode (c : Byte) (t : ReqType) (h : ReqType.ofCode c = some t) : t.code = c := by
  have := List.find?_some h
  simpa using this

/-- A request whose payload has its type's length, and no more than the largest, passes the framing checks. -/
theorem frameCheck_encoded (ty : ReqType) (tag : Byte) (p : List Byte) (short : p.length ≤ Config.maxPayload)
    (fixed : ∀ n, ty.fixedLength = some n → p.length = n) (fields : ty.fixedLength = none → 18 ≤ p.length) :
    frameCheck { bytes := encodeMessage ty tag p, overlong := false } = .ok ty tag p := by
  have e : encodeMessage ty tag p = ty.code :: tag :: (put16 (BitVec.ofNat 16 p.length) ++ p) := rfl
  have n : (BitVec.ofNat 16 p.length).toNat = p.length := by
    rw [BitVec.toNat_ofNat]
    simp only [Config.maxPayload] at short
    omega
  simp only [frameCheck, e, get8, get16_put16, n]
  rw [if_neg (by simp [short])]
  simp only [ReqType.ofCode_code]
  cases hf : ty.fixedLength with
  | none =>
    simp only
    rw [if_neg (by have := fields hf; omega)]
  | some len => simp only [fixed len hf, if_true]

/-- The framing checks of a request whose header is whole (R190). -/
theorem frameCheck_header (ty tag hi lo : Byte) (p : List Byte) (long : Bool) :
    frameCheck { bytes := ty :: tag :: hi :: lo :: p, overlong := long } =
      if long = true ∨ 6400 < (hi ++ lo : BitVec 16).toNat ∨ (hi ++ lo : BitVec 16).toNat ≠ p.length then
        .badLength (answerTypeOf ty) tag
      else
        match ReqType.ofCode ty with
        | none => .badType tag
        | some t =>
          match t.fixedLength with
          | some len => if p.length = len then .ok t tag p else .badLength (answerTypeOf ty) tag
          | none => if p.length < 18 then .badLength (answerTypeOf ty) tag else .ok t tag p := by
  have c : (long || decide ((ty :: tag :: hi :: lo :: p).length < 4) || decide (Config.maxPayload < (hi ++ lo : BitVec 16).toNat)
      || (hi ++ lo : BitVec 16).toNat != p.length) =
      decide (long = true ∨ 6400 < (hi ++ lo : BitVec 16).toNat ∨ (hi ++ lo : BitVec 16).toNat ≠ p.length) := by
    have short : ¬ (ty :: tag :: hi :: lo :: p).length < 4 := by simp
    rw [decide_eq_false short]
    by_cases a : 6400 < (hi ++ lo : BitVec 16).toNat <;> by_cases b : (hi ++ lo : BitVec 16).toNat = p.length <;>
      cases long <;> simp [Config.maxPayload, a, b]
  have e : frameCheck { bytes := ty :: tag :: hi :: lo :: p, overlong := long } =
      if (long || decide ((ty :: tag :: hi :: lo :: p).length < 4) || decide (Config.maxPayload < (hi ++ lo : BitVec 16).toNat)
        || (hi ++ lo : BitVec 16).toNat != p.length) = true then .badLength (answerTypeOf ty) tag
      else
        match ReqType.ofCode ty with
        | none => .badType tag
        | some t =>
          match t.fixedLength with
          | some len => if p.length = len then .ok t tag p else .badLength (answerTypeOf ty) tag
          | none => if p.length < 18 then .badLength (answerTypeOf ty) tag else .ok t tag p := rfl
  rw [e, c]
  simp only [decide_eq_true_eq]

/-- A request that is overlong or too short for a header fails its length check (R190). -/
theorem frameCheck_noHeader (raw : RawRequest) (h : raw.overlong = true ∨ raw.bytes.length < 4) :
    frameCheck raw = .badLength (answerTypeOf (raw.bytes.getD 0 0)) (raw.bytes.getD 1 0) := by
  obtain ⟨bytes, long⟩ := raw
  rcases bytes with _ | ⟨a, _ | ⟨b, rest⟩⟩ <;> simp only [frameCheck, get8] <;>
    exact if_pos (by rcases h with h | h <;> simp_all)

end Sys2Proof
end

