-- ==== Sys2Proof/Laws/Flags.lean ====
section
/-! SUPPORT. Each flag read from the byte that holds it (event flag layout, R193 to R195). -/

namespace Sys2Proof.Machine

/-- A bit of the flag word is a bit of the byte it stands in (R194). -/
theorem flagWord_bit (s : State) (n : Nat) :
    s.flagWord.getLsbD n =
      if n < 64 then
        if n < 56 then
          if n < 48 then
            if n < 40 then
              if n < 32 then
                if n < 24 then
                  if n < 16 then if n < 8 then s.link.cueFlags.getLsbD n else s.link.portFlags.getLsbD (n - 8)
                  else s.lanes.ln5.flags.getLsbD (n - 16)
                else s.lanes.ln4.flags.getLsbD (n - 24)
              else s.lanes.ln3.flags.getLsbD (n - 32)
            else s.lanes.ln2.flags.getLsbD (n - 40)
          else s.lanes.ln1.flags.getLsbD (n - 48)
        else s.lanes.ln0.flags.getLsbD (n - 56)
      else s.link.trackerFlags.getLsbD (n - 64) := by
  change BitVec.getLsbD (w := 8 + (8 + (8 + (8 + (8 + (8 + (8 + (8 + 8)))))))) (s.link.trackerFlags ++
    (s.lanes.ln0.flags ++ (s.lanes.ln1.flags ++ (s.lanes.ln2.flags ++ (s.lanes.ln3.flags ++ (s.lanes.ln4.flags ++
      (s.lanes.ln5.flags ++ (s.link.portFlags ++ s.link.cueFlags)))))))) n = _
  rw [BitVec.getLsbD_append, BitVec.getLsbD_append, BitVec.getLsbD_append, BitVec.getLsbD_append, BitVec.getLsbD_append,
    BitVec.getLsbD_append, BitVec.getLsbD_append, BitVec.getLsbD_append]

theorem flag_tracker (s : State) (f : TrackerFlag) : s.flag (.tracker f) = s.link.trackerFlags.getLsbD f.bit := by
  rw [State.flag, flagWord_bit]
  cases f <;> rfl

theorem flag_lane (s : State) (i : LaneId) (f : LaneFlag) : s.flag (.lane i f) = (s.lanes.get i).flags.getLsbD f.bit := by
  rw [State.flag, flagWord_bit]
  cases i <;> cases f <;> rfl

theorem flag_port (s : State) (f : PortFlag) : s.flag (.port f) = s.link.portFlags.getLsbD f.bit := by
  rw [State.flag, flagWord_bit]
  cases f <;> rfl

theorem flag_cue (s : State) (f : CueFlag) : s.flag (.cue f) = s.link.cueFlags.getLsbD f.bit := by
  rw [State.flag, flagWord_bit]
  cases f with
  | fired c => cases c <;> rfl
  | fail c => cases c <;> rfl

/-- Every flag's place is a position that holds a flag, and every such position is some flag's place. -/
theorem flagPositions_place (f : Flag) : flagPositions.getLsbD f.place = true := by
  cases f with
  | tracker f => cases f <;> decide
  | lane i f => cases i <;> cases f <;> decide
  | port f => cases f <;> decide
  | cue f => cases f with
    | fired c => cases c <;> decide
    | fail c => cases c <;> decide

/-- Raising a lane's flag sets its bit and keeps the others (R193). -/
theorem raise_flags (l : Lane) (f : LaneFlag) : (l.raise f).flags = l.flags ||| bitMask f.bit := rfl

end Sys2Proof.Machine
end

