-- ==== Sys2Proof/Laws/Link.lean ====
section
/-! SUPPORT. Everything the processing of a request can do (R188, R189), what LBIND asks of the other lanes (R63), and what a step
can be: one lemma per shared operation, for the provers to cite instead of unfolding. -/

namespace Sys2Proof.Machine

/-- A ready part processes a request: its owner acts and the answer is posted (R189). -/
theorem serve_ready {s : State} {i : Instr} {ty : ReqType} {tag : Byte} {p : List Byte} (h : s.Ready)
    (hi : i.request? = some (ty, tag, p)) (owner : State → State × List Byte) :
    s.serve i owner = (owner s).1.post ty tag (owner s).2 := by
  have hc : s.canServe = true := by simp [State.canServe, State.canAnswer, Config.outboundAnswers, h.2.1, h.2.2]
  simp only [State.serve, hi, h.1, hc, if_true]

/-- A running part that is not ready lets a request wait (R189; log 4). -/
theorem serve_waits {s : State} {i : Instr} {ty : ReqType} {tag : Byte} {p : List Byte} (hi : i.request? = some (ty, tag, p))
    (hr : s.running = true) (hn : ¬(s.link.outbound.length < 8 ∧ s.link.inbound = [])) (owner : State → State × List Byte) :
    s.serve i owner = s.stall (encodeRequest i) := by
  have hc : s.canServe = false := by
    by_cases hb : s.link.inbound = []
    · have ho : ¬s.link.outbound.length < 8 := fun h => hn ⟨h, hb⟩
      simp [State.canServe, State.canAnswer, Config.outboundAnswers, ho]
    · simp [State.canServe, hb]
  simp [State.serve, hi, hr, hc]

/-- Everything `serve` can do to a request: nothing before the count starts, a wait in a slot while an older request waits or
the outbound queue is full, or its owner's work with its answer posted (R188, R189; log 4). -/
theorem serve_cases {s : State} {i : Instr} {ty : ReqType} {tag : Byte} {p : List Byte} (hi : i.request? = some (ty, tag, p))
    (owner : State → State × List Byte) :
    (s.running = false ∧ s.serve i owner = s) ∨
      (s.running = true ∧ (s.link.inbound ≠ [] ∨ 8 ≤ s.link.outbound.length) ∧ s.serve i owner = s.stall (encodeRequest i)) ∨
      (s.Ready ∧ s.serve i owner = (owner s).1.post ty tag (owner s).2) := by
  by_cases hr : s.running = true
  · by_cases hc : s.link.outbound.length < 8 ∧ s.link.inbound = []
    · exact .inr (.inr ⟨⟨hr, hc⟩, serve_ready ⟨hr, hc⟩ hi owner⟩)
    · refine .inr (.inl ⟨hr, by
        by_cases hb : s.link.inbound = []
        · exact .inr (Nat.le_of_not_lt (fun h => hc ⟨h, hb⟩))
        · exact .inl hb, serve_waits hi hr hc owner⟩)
  · have hf : s.running = false := by simpa using hr
    exact .inl ⟨hf, by simp [State.serve, hi, hf]⟩

/-- A stall changes at most the inbound buffer, which it leaves within its two slots, the promised one free (R187, R189; log 4). -/
theorem stall_cases (s : State) (raw : RawRequest) :
    s.stall raw = s ∨
      (s.link.inbound.length + s.promisedSlots < 2 ∧
        s.stall raw = { s with link := { s.link with inbound := s.link.inbound ++ [raw] } }) := by
  by_cases h : s.link.inbound.length + s.promisedSlots < 2
  · have hf : ¬ s.freeSlots ≤ s.promisedSlots := by simp only [State.freeSlots, Config.inboundSlots]; omega
    exact .inr ⟨h, by simp only [State.stall, hf, if_false]⟩
  · have hf : s.freeSlots ≤ s.promisedSlots := by simp only [State.freeSlots, Config.inboundSlots]; omega
    exact .inl (by simp only [State.stall, hf, if_true])

/-- The answer a request posts: its type with 0x80 added, its tag, its payload (R191). -/
theorem post_eq (s : State) (ty : ReqType) (tag : Byte) (p : List Byte) :
    s.post ty tag p = s.postAnswer { type := ty.code + 0x80, tag := tag, payload := p } := rfl

/-- Every command answers a next state: the part has no fault, and no request is refused but by an answer. -/
theorem exec_next (c : Instr) (s : State) : ∃ t, exec c s = .next t := by
  cases c <;> exact ⟨_, rfl⟩

/-- What a step is: the front command; on an empty queue the sample periods of a boundary join the queue, or the oldest request is
served, or a tick passes (log 1, log 2). -/
theorem step_cases (s : State) :
    (∃ c rest, s.pending = c :: rest ∧ step s = exec c { s with pending := rest }) ∨
      (s.pending = [] ∧ s.periodsWait = true ∧ step s = .next s.queuePeriods) ∨
      (s.pending = [] ∧ s.periodsWait = false ∧ ∃ c rest t, s.linkNext? = some (c, rest) ∧
        exec c (s.withInbound []) = .next t ∧ step s = .next (t.withInbound rest)) ∨
      (s.pending = [] ∧ s.periodsWait = false ∧ s.linkNext? = none ∧ step s = .next s.tick) := by
  cases hp : s.pending with
  | cons c rest => exact .inl ⟨c, rest, rfl, by simp [step, hp]⟩
  | nil =>
    cases hw : s.periodsWait with
    | true => exact .inr (.inl ⟨rfl, rfl, by simp [step, hp, hw]⟩)
    | false =>
      cases hl : s.linkNext? with
      | none => exact .inr (.inr (.inr ⟨rfl, rfl, rfl, by simp [step, hp, hw, hl]⟩))
      | some v =>
        obtain ⟨t, ht⟩ := exec_next v.1 (s.withInbound [])
        exact .inr (.inr (.inl ⟨rfl, rfl, v.1, v.2, t, rfl, ht, by simp [step, hp, hw, hl, ht, withBehind]⟩))

/-- What E_BOUND asks of the other lanes (R63): the stream is current on one of them or its pending switch names it. -/
theorem boundElsewhere_iff (s : State) (i : LaneId) (st : StreamId) :
    s.boundElsewhere i st = true ↔ ∃ j, j ≠ i ∧ ((s.lanes.get j).current = some st ∨
      ∃ sw, (s.lanes.get j).switch = some sw ∧ sw.stream = st) := by
  have hb : ∀ l : Lane, l.bound st = true ↔ (l.current = some st ∨ ∃ sw, l.switch = some sw ∧ sw.stream = st) := by
    intro l
    unfold Lane.bound
    cases l.switch <;> simp
  simp only [State.boundElsewhere, List.any_eq_true, Bool.and_eq_true, hb, bne_iff_ne]
  exact ⟨fun ⟨j, _, h⟩ => ⟨j, h⟩, fun ⟨j, h⟩ => ⟨j, by cases j <;> decide, h⟩⟩

end Sys2Proof.Machine
end

