-- ==== Sys2Proof/Laws/Operands.lean ====
section
/-! SUPPORT. One lemma per operand reader: what it reads from the code of a value (R200, Type codes and result codes). -/

namespace Sys2Proof.Machine

theorem readBool_code (b : Bool) : readBool (if b then 1 else 0) = some b := by cases b <;> rfl

theorem readLane_of_num {n : Byte} {i : LaneId} (h : n.toNat = i.num) : readLane n = some i := by
  unfold readLane; rw [h]; cases i <;> rfl

theorem readLine_of_num {n : Byte} {i : LineId} (h : n.toNat = i.num) : readLine n = some i := by
  unfold readLine; rw [h]; cases i <;> rfl

theorem readCue_of_num {n : Byte} {c : CueId} (h : n.toNat = c.num) : readCue n = some c := by
  unfold readCue; rw [h]; cases c <;> rfl

theorem byte_of_laneNum {n : Byte} {i : LaneId} (h : n.toNat = i.num) : BitVec.ofNat 8 i.num = n := by
  rw [← h, BitVec.ofNat_toNat, BitVec.setWidth_eq]

theorem byte_of_lineNum {n : Byte} {i : LineId} (h : n.toNat = i.num) : BitVec.ofNat 8 i.num = n := by
  rw [← h, BitVec.ofNat_toNat, BitVec.setWidth_eq]

@[simp] theorem readOutPort_code (p : OutPort) : readOutPort (outPortCode p) = some p := by cases p <;> rfl
@[simp] theorem readRole_code (r : Role) : readRole r.code = some r := by cases r <;> rfl
@[simp] theorem readPolarity_code (p : StrobePolarity) : readPolarity p.code = some p := by cases p <;> rfl
@[simp] theorem readDirection_code (d : Direction) : readDirection d.code = some d := by cases d <;> rfl
@[simp] theorem readPolicy_code (p : SyncPolicy) : readPolicy p.code = some p := by cases p <;> rfl
@[simp] theorem readMap_code (m : ChannelMap) : readMap m.code = some m := by cases m <;> rfl
@[simp] theorem readWidth_code (w : Width) : readWidth w.code = some w := by cases w <;> rfl
@[simp] theorem readWsPolarity_code (p : WsPolarity) : readWsPolarity p.code = some p := by cases p <;> rfl
@[simp] theorem readAlignment_code (a : Alignment) : readAlignment a.code = some a := by cases a <;> rfl
@[simp] theorem readClockMode_code (m : ClockMode) : readClockMode m.code = some m := by cases m <;> rfl
@[simp] theorem readCueMode_code (m : CueMode) : readCueMode m.code = some m := by cases m <;> rfl
@[simp] theorem readReport_code (r : ReportMode) : readReport r.code = some r := by cases r <;> rfl
@[simp] theorem readLineMode_code (m : LineMode) : readLineMode m.code = some m := by cases m <;> rfl

/-! The codes outside each list (R200): the reader answers none exactly on these. -/

theorem readBool_none (b : Byte) : readBool b = none ↔ 1 < b.toNat := by revert b; decide +kernel
theorem readLane_none (b : Byte) : readLane b = none ↔ 5 < b.toNat := by revert b; decide +kernel
theorem readLine_none (b : Byte) : readLine b = none ↔ 5 < b.toNat := by revert b; decide +kernel
theorem readCue_none (b : Byte) : readCue b = none ↔ 3 < b.toNat := by revert b; decide +kernel
theorem readGate_none (b : Byte) : readGate b = none ↔ 5 < b.toNat ∧ b ≠ 0xFF := by revert b; decide +kernel
theorem readOutPort_none (b : Byte) : readOutPort b = none ↔ 1 < b.toNat := by revert b; decide +kernel
theorem readRole_none (b : Byte) : readRole b = none ↔ 1 < b.toNat := by revert b; decide +kernel
theorem readMap_none (b : Byte) : readMap b = none ↔ 4 < b.toNat := by revert b; decide +kernel
theorem readWidth_none (b : Byte) : readWidth b = none ↔ b ≠ 16 ∧ b ≠ 24 := by revert b; decide +kernel
theorem readWsPolarity_none (b : Byte) : readWsPolarity b = none ↔ 1 < b.toNat := by revert b; decide +kernel
theorem readAlignment_none (b : Byte) : readAlignment b = none ↔ 1 < b.toNat := by revert b; decide +kernel
theorem readClockMode_none (b : Byte) : readClockMode b = none ↔ 1 < b.toNat := by revert b; decide +kernel
theorem readCueMode_none (b : Byte) : readCueMode b = none ↔ 2 < b.toNat := by revert b; decide +kernel
theorem readReport_none (b : Byte) : readReport b = none ↔ 1 < b.toNat := by revert b; decide +kernel
theorem readLineMode_none (b : Byte) : readLineMode b = none ↔ 1 < b.toNat := by revert b; decide +kernel

theorem readFunction_none (f c : Byte) :
    readFunction f c = none ↔ 6 < f.toNat ∨ ((f = 2 ∨ f = 3) ∧ 3 < c.toNat) := by
  rw [← readCue_none]
  unfold readFunction
  generalize readCue c = o
  cases o with
  | none => revert f; decide +kernel
  | some d => cases d <;> (revert f; decide +kernel)

end Sys2Proof.Machine
end

