-- ==== Sys2Proof/Laws/PerInstr.lean ====
section
/-! SUPPORT. The family Framing, one lemma per command: a request that the link can carry passes the framing checks of R190 with its own
type, tag and payload. A command that is no request has no framing. -/

namespace Sys2Proof.Laws.Framing

/-- The framing of a command: where it is a request that the link can carry, its bytes pass the checks of R190 as what they are. -/
def Statement (i : Instr) : Prop :=
  ∀ ty tag p, i.request? = some (ty, tag, p) → i.wf = true → frameCheck (encodeRequest i) = .ok ty tag p

/-- A request of its type's fixed length is framed. -/
theorem ofFixed (i : Instr) (ty : ReqType) (tag : Byte) (p : List Byte) (req : i.request? = some (ty, tag, p))
    (fixed : ty.fixedLength = some p.length) : Statement i := by
  intro ty' tag' p' h _
  rw [req] at h
  cases h
  have e : encodeRequest i = { bytes := encodeMessage ty tag p, overlong := false } := by
    unfold encodeRequest
    rw [req]
  rw [e]
  refine frameCheck_encoded ty tag p ?_ ?_ ?_
  · have small : ∀ n, ty.fixedLength = some n → n ≤ Config.maxPayload := by
      intro n hn
      cases ty <;> cases hn <;> decide
    exact small _ fixed
  · intro n hn
    rw [fixed] at hn
    exact Option.some.inj hn
  · intro hn
    rw [fixed] at hn
    cases hn

/-- A command that is no request meets the statement. -/
theorem ofNone (i : Instr) (none : i.request? = none) : Statement i := by
  intro ty tag p h
  rw [none] at h
  cases h

theorem coldReset : Statement .coldReset := ofNone _ rfl

theorem countStart : Statement .countStart := ofNone _ rfl

theorem blockBoundary : Statement .blockBoundary := ofNone _ rfl

theorem strobeEdge (dir : EdgeDir) : Statement (.strobeEdge dir) := ofNone _ rfl

theorem lastAcceptedEdgeExpiry : Statement .lastAcceptedEdgeExpiry := ofNone _ rfl

theorem captureEntryExpiry : Statement .captureEntryExpiry := ofNone _ rfl

theorem reAnchor : Statement .reAnchor := ofNone _ rfl

theorem holdoverExpiry : Statement .holdoverExpiry := ofNone _ rfl

theorem freerunExpiry : Statement .freerunExpiry := ofNone _ rfl

theorem chipSelectFall : Statement .chipSelectFall := ofNone _ rfl

theorem chipSelectRise (mosi : List Byte) (crossed : Nat) : Statement (.chipSelectRise mosi crossed) := ofNone _ rfl

theorem framingRefusal (raw : RawRequest) : Statement (.framingRefusal raw) := ofNone _ rfl

theorem hangTailEnd (port : OutPort) : Statement (.hangTailEnd port) := ofNone _ rfl

theorem samplePeriod (port : OutPort) : Statement (.samplePeriod port) := ofNone _ rfl

theorem spcSampleComplete : Statement .spcSampleComplete := ofNone _ rfl

theorem inputClockLoss : Statement .inputClockLoss := ofNone _ rfl

theorem spcWordSelectEdge : Statement .spcWordSelectEdge := ofNone _ rfl

theorem spcBitTaken (bit : Bool) : Statement (.spcBitTaken bit) := ofNone _ rfl

theorem tnow (tag : Byte) : Statement (.tnow tag) := ofFixed _ _ _ _ rfl rfl

theorem tset (tag : Byte) (r : TsetReq) : Statement (.tset tag r) :=
  ofFixed _ _ _ _ rfl (by simp [TsetReq.encode, ReqType.fixedLength])

theorem trole (tag : Byte) (r : TroleReq) : Statement (.trole tag r) :=
  ofFixed _ _ _ _ rfl (by simp [TroleReq.encode, ReqType.fixedLength])

theorem tsync (tag : Byte) (r : TsyncReq) : Statement (.tsync tag r) :=
  ofFixed _ _ _ _ rfl (by simp [TsyncReq.encode, ReqType.fixedLength])

theorem tstrobe (tag : Byte) (r : TstrobeReq) : Statement (.tstrobe tag r) :=
  ofFixed _ _ _ _ rfl (by simp [TstrobeReq.encode, ReqType.fixedLength])

theorem tcaps (tag : Byte) (r : Byte) : Statement (.tcaps tag r) := ofFixed _ _ _ _ rfl rfl

theorem tinj (tag : Byte) : Statement (.tinj tag) := ofFixed _ _ _ _ rfl rfl

theorem lcfg (tag : Byte) (r : LcfgReq) : Statement (.lcfg tag r) :=
  ofFixed _ _ _ _ rfl (by simp [LcfgReq.encode, ReqType.fixedLength])

theorem lbind (tag : Byte) (r : LbindReq) : Statement (.lbind tag r) :=
  ofFixed _ _ _ _ rfl (by simp [LbindReq.encode, ReqType.fixedLength])

theorem lgo (tag : Byte) (r : Byte) : Statement (.lgo tag r) := ofFixed _ _ _ _ rfl rfl

theorem lhalt (tag : Byte) (r : LhaltReq) : Statement (.lhalt tag r) :=
  ofFixed _ _ _ _ rfl (by simp [LhaltReq.encode, ReqType.fixedLength])

theorem lstat (tag : Byte) (r : Byte) : Statement (.lstat tag r) := ofFixed _ _ _ _ rfl rfl

theorem lfetch (tag : Byte) (r : Byte) : Statement (.lfetch tag r) := ofFixed _ _ _ _ rfl rfl

theorem mgain (tag : Byte) (r : MgainReq) : Statement (.mgain tag r) :=
  ofFixed _ _ _ _ rfl (by simp [MgainReq.encode, ReqType.fixedLength])

theorem mduck (tag : Byte) (r : MduckReq) : Statement (.mduck tag r) :=
  ofFixed _ _ _ _ rfl (by simp [MduckReq.encode, ReqType.fixedLength])

theorem pcfg (tag : Byte) (r : PcfgReq) : Statement (.pcfg tag r) :=
  ofFixed _ _ _ _ rfl (by simp [PcfgReq.encode, ReqType.fixedLength])

theorem cset (tag : Byte) (r : CsetReq) : Statement (.cset tag r) :=
  ofFixed _ _ _ _ rfl (by simp [CsetReq.encode, ReqType.fixedLength])

theorem crun (tag : Byte) (r : CrunReq) : Statement (.crun tag r) :=
  ofFixed _ _ _ _ rfl (by simp [CrunReq.encode, ReqType.fixedLength])

theorem gset (tag : Byte) (r : GsetReq) : Statement (.gset tag r) :=
  ofFixed _ _ _ _ rfl (by simp [GsetReq.encode, ReqType.fixedLength])

theorem gread (tag : Byte) : Statement (.gread tag) := ofFixed _ _ _ _ rfl rfl

theorem eread (tag : Byte) : Statement (.eread tag) := ofFixed _ _ _ _ rfl rfl

theorem eclear (tag : Byte) (r : FlagWord) : Statement (.eclear tag r) := ofFixed _ _ _ _ rfl rfl

theorem emask (tag : Byte) (r : FlagWord) : Statement (.emask tag r) := ofFixed _ _ _ _ rfl rfl

theorem xreset (tag : Byte) : Statement (.xreset tag) := ofFixed _ _ _ _ rfl rfl

theorem xident (tag : Byte) : Statement (.xident tag) := ofFixed _ _ _ _ rfl rfl

/-- LFRAME's length is its eighteen bytes of fields and the packed samples (R73, R190). -/
theorem lframe (tag : Byte) (r : LframeReq) : Statement (.lframe tag r) := by
  intro ty tag' p h fits
  cases h
  have len : r.encode.length = 18 + r.payload.length := by
    simp [LframeReq.encode]
    omega
  refine frameCheck_encoded .lframe tag r.encode ?_ (fun n hn => by cases hn) (fun _ => by omega)
  have := of_decide_eq_true fits
  omega

end Sys2Proof.Laws.Framing
end

