-- ==== Sys2Proof/Laws/Playout.lean ====
section
/-! SUPPORT. What playing can do to a lane: every operation of a lane's work at a boundary keeps the configuration, holds no more frames
and no more words than before, and leaves the lane's state machine to its direction (R46, R54, R70, R87). -/

namespace Sys2Proof.Machine

/-- `m` is `l` after some playback work. -/
structure Played (l m : Lane) : Prop where
  config : m.config = l.config
  filling : m.filling = l.filling
  actions : m.actions = l.actions
  queue : m.queue.length ≤ l.queue.length
  fill : m.fill ≤ l.fill
  empty : l.allocs = [] → m.allocs = []
  running : l.state ≠ .running → m.state ≠ .running
  off : m.state = .off → l.state = .off

theorem Played.refl (l : Lane) : Played l l := ⟨rfl, rfl, rfl, le_refl _, le_refl _, id, id, id⟩

theorem Played.trans {l m n : Lane} (h : Played l m) (k : Played m n) : Played l n :=
  ⟨k.config.trans h.config, k.filling.trans h.filling, k.actions.trans h.actions, k.queue.trans h.queue, k.fill.trans h.fill,
    fun e => k.empty (h.empty e), fun e => k.running (h.running e), fun e => h.off (k.off e)⟩

/-- A release that holds no more frames (R71). -/
theorem Released.played {l m : Lane} (h : Released l m) (hq : m.queue.length ≤ l.queue.length) : Played l m := by
  have e := h.frame
  refine ⟨?_, ?_, ?_, hq, h.fill, h.empty, ?_, ?_⟩
  · rw [e]
  · rw [e]
  · rw [e]
  · intro hs; rw [e]; exact hs
  · intro hs; rw [e] at hs; exact hs

theorem releaseHead_played (l : Lane) : Played l l.releaseHead :=
  (releaseHead_released l).played (by rw [releaseHead_queue]; simp)

theorem releaseWhere_played (l : Lane) (p : FrameRecord → Bool) : Played l (l.releaseWhere p) :=
  (releaseWhere_released l p).played (by rw [releaseWhere_queue]; exact List.length_filter_le _ _)

theorem raise_played (l : Lane) (f : LaneFlag) : Played l (l.raise f) := ⟨rfl, rfl, rfl, le_refl _, le_refl _, id, id, id⟩

theorem countUp_played (l : Lane) (f : PlayCounters → PlayCounters) : Played l (l.countUp f) :=
  ⟨rfl, rfl, rfl, le_refl _, le_refl _, id, id, id⟩

theorem watermark_played (l : Lane) (n : Nat) : Played l (l.watermark n) := by
  rw [watermark_frame]
  exact ⟨rfl, rfl, rfl, le_refl _, le_refl _, id, id, id⟩

theorem commit_played (l : Lane) : Played l l.commit := by
  unfold Lane.commit
  split
  · exact Played.refl l
  · have h := releaseWhere_played l (fun f => f.status == .queued && some f.stream == l.current)
    exact ⟨h.config, h.filling, h.actions, h.queue, h.fill, h.empty, h.running, h.off⟩

theorem starve_played (l : Lane) : Played l l.starve :=
  ⟨rfl, rfl, rfl, le_refl _, le_refl _, id, fun _ h => LaneState.noConfusion h, fun h => LaneState.noConfusion h⟩

theorem markHeadPlaying_played (l : Lane) : Played l l.markHeadPlaying := by
  unfold Lane.markHeadPlaying
  split
  · exact Played.refl l
  · rename_i f rest h
    exact ⟨rfl, rfl, rfl, by simp [h], le_refl _, id, id, id⟩

theorem beginEffects_played (l : Lane) (f : FrameRecord) : Played l (l.beginEffects f) := by
  have h1 : Played l (match f.tag with
      | none => l
      | some t => { l.raise .tag with lastTag := some t }) := by
    split
    · exact Played.refl l
    · exact ⟨rfl, rfl, rfl, le_refl _, le_refl _, id, id, id⟩
  unfold Lane.beginEffects
  dsimp only
  split
  · exact h1
  · split
    · exact h1.trans (commit_played _)
    · exact h1

theorem enterHead_played (l : Lane) (c : Cursor) : Played l (l.enterHead c) := by
  unfold Lane.enterHead
  split
  · exact ⟨rfl, rfl, rfl, le_refl _, le_refl _, id, id, id⟩
  · have h := markHeadPlaying_played l
    have h1 : Played l { l.markHeadPlaying with cursor := some c } :=
      ⟨h.config, h.filling, h.actions, h.queue, h.fill, h.empty, h.running, h.off⟩
    dsimp only
    split
    · exact h1
    · exact h1.trans (beginEffects_played _ _)

/-- A frame that is entered stays the queue's head: a switch it commits releases QUEUED frames alone (R66, R99). -/
theorem enterHead_queue {l : Lane} (c : Cursor) (h : l.queue ≠ []) : (l.enterHead c).queue ≠ [] := by
  obtain ⟨f, rest, hq⟩ := List.exists_cons_of_ne_nil h
  have hm : l.markHeadPlaying.queue = { f with status := .playing } :: rest := by simp [Lane.markHeadPlaying, hq]
  have hc : ∀ m : Lane, m.queue = { f with status := .playing } :: rest → m.commit.queue ≠ [] := by
    intro m hm
    unfold Lane.commit
    split
    · simp [hm]
    · simp [releaseWhere_queue, hm]
  unfold Lane.enterHead Lane.beginEffects
  simp only [hq]
  split
  · simp [hm]
  · have hb : (match f.tag with
        | none => ({ l.markHeadPlaying with cursor := some c } : Lane)
        | some t => { ({ l.markHeadPlaying with cursor := some c } : Lane).raise .tag with lastTag := some t }).queue =
        { f with status := .playing } :: rest := by
      split <;> exact hm
    split
    · exact fun h => absurd (hb.symm.trans h) (List.cons_ne_nil _ _)
    · split
      · exact hc _ hb
      · exact fun h => absurd (hb.symm.trans h) (List.cons_ne_nil _ _)

theorem enterGap_played (l : Lane) : Played l l.enterGap :=
  ⟨rfl, rfl, rfl, le_refl _, le_refl _, id, fun _ h => LaneState.noConfusion h, fun h => LaneState.noConfusion h⟩

theorem drain_played (l : Lane) : Played l l.drain :=
  ⟨rfl, rfl, rfl, le_refl _, le_refl _, id, fun _ h => LaneState.noConfusion h, fun h => LaneState.noConfusion h⟩

theorem endStops_played (k : BlockKind) {l m : Lane} (h : Played l m) : Played l (l.endStops k m) := by
  cases k
  · exact h
  · exact h
  · exact h
  · exact ⟨rfl, rfl, rfl, le_refl _, le_refl _, id, id, id⟩

/-- The end of the cursor's frame, through every frame it passes (R98 to R102). -/
theorem frameEnd_played (k : BlockKind) (fuel : Nat) (c : Cursor) (l : Lane) : Played l (l.frameEnd k fuel c) := by
  induction fuel generalizing c l with
  | zero => exact Played.refl l
  | succ n ih =>
    unfold Lane.frameEnd
    split
    · exact ⟨rfl, rfl, rfl, le_refl _, le_refl _, id, id, id⟩
    · rename_i f rest _
      have h1 := releaseHead_played l
      dsimp only
      split
      · exact h1.trans (endStops_played k (drain_played _))
      · split
        · exact h1.trans (endStops_played k (starve_played _))
        · rename_i next _ _
          split
          · exact h1.trans (endStops_played k (enterGap_played _))
          · have h2 : Played l.releaseHead
                (if frameGap f next < -256 then
                  l.releaseHead.countUp (fun n => { n with overlaps := satInc n.overlaps }) else l.releaseHead) := by
              split
              · exact countUp_played _ _
              · exact Played.refl _
            split
            · exact ((h1.trans h2).trans (enterHead_played _ _)).trans (ih _ _)
            · exact (h1.trans h2).trans (enterHead_played _ _)

/-- Beyond the queue's length the fuel of a frame end counts for nothing: each frame it passes is one of the queue's (R99). -/
theorem frameEnd_fuel (k : BlockKind) (n m : Nat) (c : Cursor) (l : Lane) (h : l.queue ≠ []) (hn : l.queue.length ≤ n)
    (hm : l.queue.length ≤ m) : l.frameEnd k n c = l.frameEnd k m c := by
  induction n generalizing m c l with
  | zero => exact absurd (List.length_eq_zero_iff.mp (Nat.le_zero.mp hn)) h
  | succ n ih =>
    obtain ⟨f, rest, hq⟩ := List.exists_cons_of_ne_nil h
    cases m with
    | zero => simp [hq] at hm
    | succ m =>
      simp only [hq, List.length_cons, Nat.add_le_add_iff_right] at hn hm
      unfold Lane.frameEnd
      simp only [hq]
      cases rest with
      | nil => rfl
      | cons g more =>
        have key : ∀ (x : Lane) (d : Cursor), x.queue = l.releaseHead.queue →
            (x.enterHead d).frameEnd k n d = (x.enterHead d).frameEnd k m d := by
          intro x d hx
          have hr : x.queue = g :: more := by rw [hx, releaseHead_queue, hq]; rfl
          have hlen := (enterHead_played x d).queue
          rw [hr] at hlen
          exact ih m d _ (enterHead_queue d (by simp [hr])) (hlen.trans hn) (hlen.trans hm)
        by_cases hg : frameGap f g < -256
        · simp only [hg, if_true, key (l.releaseHead.countUp _) _ rfl]
        · simp only [hg, if_false, key l.releaseHead _ rfl]

theorem advance_played (k : BlockKind) (step : Nat) (l : Lane) (f : FrameRecord) (c : Cursor) :
    Played l (l.advance k step f c) := by
  unfold Lane.advance
  dsimp only
  split
  · exact frameEnd_played k _ _ l
  · exact ⟨rfl, rfl, rfl, le_refl _, le_refl _, id, id, id⟩

/-- Producing positions (R121 to R125): as many as asked for. -/
theorem produce_played (store : Memory) (k : BlockKind) (step n j : Nat) (l : Lane) :
    Played l (produce store k step n j l).1 := by
  induction n generalizing j l with
  | zero => exact Played.refl l
  | succ n ih =>
    unfold produce
    split
    · exact (advance_played k step l _ _).trans (ih _ _)
    · exact ih _ _

theorem produce_length (store : Memory) (k : BlockKind) (step n j : Nat) (l : Lane) :
    (produce store k step n j l).2.length = n := by
  induction n generalizing j l with
  | zero => rfl
  | succ n ih =>
    unfold produce
    split <;> simp [ih]

theorem produceBlock_played (store : Memory) (k : BlockKind) (step : Nat) (l : Lane) :
    Played l (l.produceBlock store k step).1 :=
  Played.trans (m := { l with lastStep := some step }) ⟨rfl, rfl, rfl, le_refl _, le_refl _, id, id, id⟩
    (produce_played _ _ _ _ _ _)

theorem dropHead_played (l : Lane) : Played l l.dropHead := (releaseHead_played l).trans (countUp_played _ _)

theorem dropLate_played (c0 : Time) (n : Nat) (l : Lane) : Played l (l.dropLate c0 n) := by
  induction n generalizing l with
  | zero => exact Played.refl l
  | succ n ih =>
    unfold Lane.dropLate
    split
    · exact Played.refl l
    · split
      · exact Played.refl l
      · exact (dropHead_played l).trans (ih _)

/-- The lane that start alignment leaves, whatever it comes to (R95, R96). -/
def AlignResult.lane : AlignResult → Lane
  | .waits l => l
  | .emptied l => l
  | .placed l _ => l

theorem align_played (target aim : Time) (l : Lane) : Played l (l.align target aim).lane := by
  unfold Lane.align
  split
  · exact Played.refl l
  · rename_i j0 c0 _
    have h := dropLate_played c0 l.queue.length l
    dsimp only
    split
    · exact ⟨h.config, h.filling, h.actions, h.queue, h.fill, h.empty, h.running, h.off⟩
    · split
      · split
        · exact ⟨h.config, h.filling, h.actions, h.queue, h.fill, h.empty, h.running, h.off⟩
        · exact h.trans (enterHead_played _ _)
      · exact h.trans (enterHead_played _ _)

theorem startBlock_played (env : BoundaryEnv) (l : Lane) (j0 : Nat) : Played l (l.startBlock env j0).1 := by
  unfold Lane.startBlock
  refine Played.trans ?_ (produce_played _ _ _ _ _ _)
  exact ⟨rfl, rfl, rfl, le_refl _, le_refl _, id, fun _ h => LaneState.noConfusion h, fun h => LaneState.noConfusion h⟩

theorem workArmed_played (env : BoundaryEnv) (l : Lane) : Played l (l.workArmed env).1 := by
  unfold Lane.workArmed
  split
  · rename_i t f _ _ _
    have h := align_played t f.time l
    split
    · rename_i e; rw [e] at h; exact h
    · rename_i e; rw [e] at h; exact h
    · rename_i e; rw [e] at h; exact Played.trans h (startBlock_played env _ _)
  · exact Played.refl l

theorem workBridging_played (env : BoundaryEnv) (l : Lane) : Played l (l.workBridging env).1 := by
  unfold Lane.workBridging
  split
  · exact Played.refl l
  · rename_i t _
    have h0 : Played l (l.refreshAim t) := by
      unfold Lane.refreshAim
      split
      · split
        · exact ⟨rfl, rfl, rfl, le_refl _, le_refl _, id, id, id⟩
        · exact Played.refl l
      · exact Played.refl l
      · exact Played.refl l
    dsimp only
    split
    · exact h0.trans (starve_played _)
    · rename_i a _
      have h := align_played t a (l.refreshAim t)
      split
      · rename_i e; rw [e] at h; exact h0.trans h
      · rename_i e; rw [e] at h; exact (h0.trans h).trans (starve_played _)
      · rename_i e; rw [e] at h; exact (h0.trans h).trans (startBlock_played env _ _)

theorem bridgeToHead_played (env : BoundaryEnv) (l : Lane) : Played l (l.bridgeToHead env).1 := by
  unfold Lane.bridgeToHead
  refine Played.trans ?_ (workBridging_played env _)
  exact ⟨rfl, rfl, rfl, le_refl _, le_refl _, id, fun _ h => LaneState.noConfusion h, fun h => LaneState.noConfusion h⟩

theorem workPurged_played (env : BoundaryEnv) (l : Lane) : Played l (l.workPurged env).1 := by
  unfold Lane.workPurged
  split
  · exact starve_played l
  · exact bridgeToHead_played env l

theorem workStarved_played (env : BoundaryEnv) (l : Lane) : Played l (l.workStarved env).1 := by
  unfold Lane.workStarved
  split
  · exact Played.refl l
  · exact bridgeToHead_played env l

theorem workHeld_played (env : BoundaryEnv) (l : Lane) : Played l (l.workHeld env).1 := by
  unfold Lane.workHeld
  split
  · exact workPurged_played env l
  · split
    · exact Played.refl l
    · refine Played.trans ?_ (workBridging_played env _)
      exact ⟨rfl, rfl, rfl, le_refl _, le_refl _, id, fun _ h => LaneState.noConfusion h, fun h => LaneState.noConfusion h⟩

theorem slip_played (env : BoundaryEnv) (l : Lane) (target : Time) (e : Int) : Played l (l.slip env target e).1 := by
  have h := ((raise_played l .slip).trans (countUp_played _ (fun c => { c with slips := satInc c.slips }))).trans
    (produceBlock_played env.store .slip (plainStep env.tracker) _)
  unfold Lane.slip
  dsimp only
  unfold Lane.afterSlip
  split
  · exact h
  · split
    · exact h.trans ⟨rfl, rfl, rfl, le_refl _, le_refl _, id, fun _ h => LaneState.noConfusion h, fun h => LaneState.noConfusion h⟩
    · exact h.trans ⟨rfl, rfl, rfl, le_refl _, le_refl _, id, fun _ h => LaneState.noConfusion h, fun h => LaneState.noConfusion h⟩

theorem workPlaying_played (env : BoundaryEnv) (l : Lane) : Played l (l.workPlaying env).1 := by
  unfold Lane.workPlaying
  split
  · exact workPurged_played env l
  · split
    · exact ⟨rfl, rfl, rfl, le_refl _, le_refl _, id, fun _ h => LaneState.noConfusion h, fun h => LaneState.noConfusion h⟩
    · dsimp only
      split
      · refine Played.trans ?_ (produceBlock_played _ _ _ _)
        exact ⟨rfl, rfl, rfl, le_refl _, le_refl _, id, id, id⟩
      · refine Played.trans ?_ (slip_played _ _ _ _)
        exact ⟨rfl, rfl, rfl, le_refl _, le_refl _, id, id, id⟩

theorem flushQueue_played (l : Lane) : Played l l.flushQueue := releaseWhere_played l _

theorem stoppingBlock_played (env : BoundaryEnv) (l : Lane) : Played l (l.stoppingBlock env).1 := by
  unfold Lane.stoppingBlock
  split
  · split
    · refine Played.trans ?_ (produceBlock_played _ _ _ _)
      exact ⟨rfl, rfl, rfl, le_refl _, le_refl _, id, id, id⟩
    · exact Played.refl l
  · exact Played.refl l

theorem completeStop_played (l : Lane) : Played l l.completeStop := by
  have h1 : Played l l.discardCursor := ⟨rfl, rfl, rfl, by simp [Lane.discardCursor], le_refl _, id, id, id⟩
  have h2 : Played l (if (l.halt.map Halt.flush).getD false then l.discardCursor.flushQueue else l.discardCursor) := by
    split
    · exact h1.trans (flushQueue_played _)
    · exact h1
  exact h2.trans ⟨rfl, rfl, rfl, le_refl _, le_refl _, id, fun _ h => LaneState.noConfusion h,
    fun h => LaneState.noConfusion h⟩

/-- The work of every state of a playback lane (R88 to R94). -/
theorem workState_played (env : BoundaryEnv) (l : Lane) : Played l (l.workState env).1 := by
  unfold Lane.workState
  split
  · exact Played.refl l
  · exact Played.refl l
  · exact Played.refl l
  · exact Played.refl l
  · exact workArmed_played env l
  · exact workPlaying_played env l
  · exact workBridging_played env l
  · exact workStarved_played env l
  · exact workHeld_played env l
  · exact (stoppingBlock_played env l).trans (completeStop_played _)

/-! ## Requests and cue actions at a lane, and its whole work at a boundary -/

/-- `m` is `l` after requests, cue actions or the work of a boundary: the configuration stays, no more frames or words are held, the
frame being filled stays or goes, and the state stays within its direction's state machine. -/
structure Worked (l m : Lane) : Prop where
  config : m.config = l.config
  filling : m.filling = l.filling ∨ m.filling = none
  queue : m.queue.length ≤ l.queue.length
  fill : m.fill ≤ l.fill
  empty : l.allocs = [] → m.allocs = []
  state : l.StateLaw → m.StateLaw
  off : m.state = .off → l.state = .off

theorem Worked.refl (l : Lane) : Worked l l := ⟨rfl, .inl rfl, le_refl _, le_refl _, id, id, id⟩

theorem Worked.trans {l m n : Lane} (h : Worked l m) (k : Worked m n) : Worked l n := by
  refine ⟨k.config.trans h.config, ?_, k.queue.trans h.queue, k.fill.trans h.fill, fun e => k.empty (h.empty e),
    fun e => k.state (h.state e), fun e => h.off (k.off e)⟩
  rcases k.filling with e | e
  · rw [e]; exact h.filling
  · exact .inr e

/-- Playback work on a lane of direction PLAY. -/
theorem Played.worked {l m : Lane} (h : Played l m) (hd : l.config.direction = .play) : Worked l m := by
  refine ⟨h.config, .inl h.filling, h.queue, h.fill, h.empty, ?_, h.off⟩
  intro hl
  have hm : m.config.direction = .play := by rw [h.config]; exact hd
  unfold Lane.StateLaw at hl ⊢
  rw [hd] at hl
  rw [hm]
  exact h.running hl

/-- LGO at a lane, when it is taken (R85, R157). -/
theorem go_worked {l m : Lane} {now : Time} (h : l.go now = .ok m) : Worked l m := by
  unfold Lane.go at h
  split at h
  · cases h
  · split at h
    · rename_i hd
      split at h
      · cases h
        exact ⟨rfl, .inl rfl, le_refl _, le_refl _, id, fun _ => by simp [Lane.StateLaw, hd],
          fun e => LaneState.noConfusion e⟩
      · cases h
    · rename_i hd
      split at h
      · split at h
        · cases h
        · cases h
          exact ⟨rfl, .inl rfl, le_refl _, le_refl _, id, fun _ => by simp [Lane.StateLaw, hd],
            fun e => LaneState.noConfusion e⟩
      · cases h

theorem discardFilling_frame (l : Lane) :
    l.discardFilling = { l with
      allocs := l.discardFilling.allocs, reclaimOffset := l.discardFilling.reclaimOffset, filling := none,
      captureCounters := l.discardFilling.captureCounters } := by
  cases h : l.filling with
  | none =>
    simp only [Lane.discardFilling, h]
    cases l
    simp only at h
    simp only [h]
  | some f =>
    simp only [Lane.discardFilling, h]
    rfl

theorem discardFilling_fill (l : Lane) : l.discardFilling.fill ≤ l.fill := by
  unfold Lane.discardFilling
  split
  · exact le_refl _
  · exact (releaseAlloc_released l _).fill

theorem discardFilling_empty (l : Lane) (h : l.allocs = []) : l.discardFilling.allocs = [] := by
  unfold Lane.discardFilling
  split
  · exact h
  · exact (releaseAlloc_released l _).empty h

/-- A halted capture lane (R158). -/
theorem haltCapture_worked {l : Lane} (hd : l.config.direction = .capture) (flush : Bool) :
    Worked l (l.haltCapture flush) := by
  have h1 : Worked l (if l.state = .running then { l.discardFilling with state := .stopped, entryTime := none } else l) := by
    split
    · have hf := discardFilling_frame l
      refine ⟨?_, .inr ?_, ?_, discardFilling_fill l, discardFilling_empty l, ?_, fun e => LaneState.noConfusion e⟩
      · rw [hf]
      · rw [hf]
      · rw [hf]
      · intro _
        unfold Lane.StateLaw
        rw [hf]
        simp [hd]
    · exact Worked.refl l
  have hd1 : (if l.state = .running then { l.discardFilling with state := .stopped, entryTime := none } else l).config.direction
      = .capture := by rw [h1.config]; exact hd
  unfold Lane.haltCapture
  dsimp only
  split
  · refine h1.trans ?_
    have h2 := flushQueue_played
      (if l.state = .running then { l.discardFilling with state := .stopped, entryTime := none } else l)
    refine ⟨h2.config, .inl h2.filling, h2.queue, h2.fill, h2.empty, ?_, h2.off⟩
    intro hl
    have hr := (releaseWhere_released
      (if l.state = .running then { l.discardFilling with state := .stopped, entryTime := none } else l) (fun _ => true)).frame
    unfold Lane.StateLaw at hl ⊢
    rw [h2.config, hd1]
    rw [hd1] at hl
    unfold Lane.flushQueue
    rw [hr]
    exact hl
  · exact h1

/-- LHALT at a lane, when it is taken (R86, R158). -/
theorem halting_worked {l m : Lane} {flush : Bool} (h : l.halting flush = .ok m) : Worked l m := by
  unfold Lane.halting at h
  split at h
  · cases h
  · split at h
    · rename_i hd
      cases h
      unfold Lane.haltPlay
      split
      · split
        · exact (flushQueue_played l).worked hd
        · exact Worked.refl l
      · split
        · exact Played.worked ⟨rfl, rfl, rfl, le_refl _, le_refl _, id, id, id⟩ hd
        · exact Played.worked ⟨rfl, rfl, rfl, le_refl _, le_refl _, id, fun _ h => LaneState.noConfusion h,
            fun h => LaneState.noConfusion h⟩ hd
    · rename_i hd
      cases h
      exact haltCapture_worked hd flush

theorem apply_worked (a : LaneAction) (now : Time) (l : Lane) : Worked l (a.apply now l).1 := by
  unfold LaneAction.apply
  cases a.action with
  | go =>
    dsimp only
    split
    · rename_i e; exact go_worked e
    · exact Worked.refl l
  | halt flush =>
    dsimp only
    split
    · rename_i e; exact halting_worked e
    · exact Worked.refl l

theorem applyActions_worked (now : Time) (as : List LaneAction) (l : Lane) : Worked l (applyActions now as l).1 := by
  induction as generalizing l with
  | nil => exact Worked.refl l
  | cons a rest ih => exact (apply_worked a now l).trans (ih _)

theorem cueStep_worked (env : BoundaryEnv) (l : Lane) : Worked l (l.cueStep env).1 := by
  unfold Lane.cueStep
  refine Worked.trans ?_ (applyActions_worked _ _ _)
  exact ⟨rfl, .inl rfl, le_refl _, le_refl _, id, id, id⟩

/-- A lane without cue actions takes none (R104). -/
theorem cueStep_none (env : BoundaryEnv) (l : Lane) (h : l.actions = []) : l.cueStep env = (l, []) := by
  unfold Lane.cueStep
  simp only [h, List.filter_nil, applyActions]
  rw [← h]

/-- The work of a PLAY lane with no cue action and no switch due: its state's own, and the watermark check (R60, R87). -/
theorem boundaryWork_state (env : BoundaryEnv) (l : Lane) (ha : l.actions = []) (hp : l.isPlay = true)
    (hs : l.switchDue (env.target l) = false) :
    l.boundaryWork env =
      { lane := (l.workState env).1.watermark l.buffered, block := (l.workState env).2, outcomes := [] } := by
  unfold Lane.boundaryWork
  rw [cueStep_none env l ha]
  simp [hp, hs]

/-- The work after the cue step (R87, R104): that of the lane the cue step leaves, its watermark check from the count before. -/
theorem boundaryWork_cueStep (env : BoundaryEnv) (l m : Lane) (outcomes : List (CueId × Bool))
    (h : l.cueStep env = (m, outcomes)) (hm : m.actions = []) :
    (l.boundaryWork env).outcomes = outcomes ∧ (l.boundaryWork env).block = (m.boundaryWork env).block ∧
      (m.isPlay = false → (l.boundaryWork env).lane = m ∧ (m.boundaryWork env).lane = m) ∧
      (m.isPlay = true →
        ∃ w : Lane, (l.boundaryWork env).lane = w.watermark l.buffered ∧ (m.boundaryWork env).lane = w.watermark m.buffered) := by
  unfold Lane.boundaryWork
  rw [h, cueStep_none env m hm]
  cases hp : m.isPlay
  · simp [hp]
  · simp only [hp, if_true]
    exact ⟨trivial, trivial, by simp, fun _ => ⟨_, rfl, rfl⟩⟩

/-- A lane's whole work at a boundary (R87, R159). -/
theorem boundaryWork_worked (env : BoundaryEnv) (l : Lane) : Worked l (l.boundaryWork env).lane := by
  have h1 := cueStep_worked env l
  unfold Lane.boundaryWork
  dsimp only
  split
  · rename_i hp
    have hd : (l.cueStep env).1.config.direction = .play := by
      simp only [Lane.isPlay, Bool.and_eq_true, beq_iff_eq] at hp
      exact hp.2
    have h2 : Played (l.cueStep env).1
        (if (l.cueStep env).1.switchDue (env.target (l.cueStep env).1) then (l.cueStep env).1.commit else (l.cueStep env).1) := by
      split
      · exact commit_played _
      · exact Played.refl _
    exact h1.trans (((h2.trans (workState_played env _)).trans (watermark_played _ _)).worked hd)
  · exact h1

end Sys2Proof.Machine
end

