-- ==== Sys2Proof/Laws/Ports.lean ====
section
/-! SUPPORT. The bits on the serial audio ports: what a slot's bits say of its value, and a value of the bits it is sent in (R144, R151). -/

namespace Sys2Proof.Machine

theorem foldl_bits_testBit (bits : List Bool) (w j : Nat) (h : j < w) :
    ((List.range w).foldl (fun n k => 2 * n + (bits.getD k false).toNat) 0).testBit j = bits.getD (w - 1 - j) false := by
  induction w generalizing j with
  | zero => omega
  | succ w ih =>
    rw [List.range_succ, List.foldl_append]
    simp only [List.foldl_cons, List.foldl_nil]
    cases j with
    | zero =>
      rw [Nat.testBit_zero, Nat.add_sub_cancel, Nat.sub_zero]
      cases bits.getD w false <;> simp
    | succ j =>
      have half : ∀ (x : Nat) (b : Bool), (2 * x + b.toNat) / 2 = x := by intro x b; cases b <;> simp; omega
      rw [Nat.testBit_succ, half, ih j (by omega)]
      congr 1
      omega

/-- The bits received stand in a slot's value most significant first, those not received as 0 (R151). -/
theorem bitsValue_getMsbD (w : Nat) (bits : List Bool) (k : Nat) (h : k < w) :
    (BitVec.ofNat w (bitsValue w bits)).getMsbD k = bits.getD k false := by
  have hlt : w - 1 - k < w := by omega
  rw [BitVec.getMsbD, BitVec.getLsbD_ofNat, bitsValue, foldl_bits_testBit _ _ _ hlt]
  simp only [h, hlt, decide_true, Bool.true_and]
  congr 1
  omega

/-- The bit of a value in bit clock `n` of its slot: most significant first, from the first bit clock on, or with DELAYED from the
second, and 0 in every other (R144). -/
theorem slotBit_eq (f : PortFormat) (v : Int) (n first : Nat) (h : first = if f.alignment = .delayed then 1 else 0) :
    slotBit f v n = (decide (first ≤ n) && (BitVec.ofInt f.width.bits v).getMsbD (n - first)) := by
  have key : ∀ i, (if i < f.width.bits then (BitVec.ofInt f.width.bits v).getMsbD i else false) =
      (BitVec.ofInt f.width.bits v).getMsbD i := by
    intro i
    split
    · rfl
    · rw [BitVec.getMsbD_of_ge _ _ (by omega)]
  subst h
  unfold slotBit
  cases f.alignment <;> simp only [key]
  · cases n <;> simp
  · simp

end Sys2Proof.Machine
end

