-- ==== Sys2Proof/Laws/Store.lean ====
section
/-! SUPPORT. The sample store (R53): a write gives back what it wrote, leaves every other word, and keeps the canonical form. -/

namespace Sys2Proof.Machine

/-- A list in canonical form above a bound is in canonical form above every lower one. -/
theorem Memory.wfFrom_mono {lo lo' : Nat} (h : lo' ≤ lo) : ∀ (m : Memory), m.wfFrom lo = true → m.wfFrom lo' = true
  | [], _ => rfl
  | (b, v) :: rest, hm => by
    simp only [Memory.wfFrom, Bool.and_eq_true, decide_eq_true_eq] at hm ⊢
    exact ⟨⟨le_trans h hm.1.1, hm.1.2⟩, hm.2⟩

/-- A word below every listed one reads 0. -/
theorem Memory.read_below {lo a : Nat} (h : a < lo) : ∀ (m : Memory), m.wfFrom lo = true → m.read a = 0
  | [], _ => rfl
  | (b, v) :: rest, hm => by
    simp only [Memory.wfFrom, Bool.and_eq_true, decide_eq_true_eq] at hm
    have hb : a < b := lt_of_lt_of_le h hm.1.1
    simp [Memory.read, hb, Nat.ne_of_lt hb]

/-- A write above a bound keeps the canonical form above it. -/
theorem Memory.wfFrom_write {a : Nat} (w : Word) :
    ∀ (m : Memory) (lo : Nat), lo ≤ a → m.wfFrom lo = true → (m.write a w).wfFrom lo = true
  | [], lo, h, _ => by
    unfold Memory.write
    split
    · rfl
    · rename_i hw
      simp only [Memory.wfFrom, Bool.and_eq_true, decide_eq_true_eq]
      exact ⟨⟨h, by simpa using hw⟩, trivial⟩
  | (b, v) :: rest, lo, h, hm => by
    simp only [Memory.wfFrom, Bool.and_eq_true, decide_eq_true_eq] at hm
    obtain ⟨⟨hlo, hv⟩, hr⟩ := hm
    simp only [Memory.write]
    split
    · rename_i hab
      split
      · simp only [Memory.wfFrom, Bool.and_eq_true, decide_eq_true_eq]
        exact ⟨⟨hlo, hv⟩, hr⟩
      · rename_i hw
        simp only [Memory.wfFrom, Bool.and_eq_true, decide_eq_true_eq]
        exact ⟨⟨h, by simpa using hw⟩, ⟨Nat.succ_le_of_lt hab, hv⟩, hr⟩
    · split
      · rename_i hab
        subst hab
        split
        · exact Memory.wfFrom_mono (Nat.le_succ_of_le hlo) rest hr
        · rename_i hw
          simp only [Memory.wfFrom, Bool.and_eq_true, decide_eq_true_eq]
          exact ⟨⟨h, by simpa using hw⟩, hr⟩
      · simp only [Memory.wfFrom, Bool.and_eq_true, decide_eq_true_eq]
        exact ⟨⟨hlo, hv⟩, Memory.wfFrom_write w rest (b + 1) (by omega) hr⟩

/-- A write keeps the canonical form. -/
theorem Memory.wf_write {m : Memory} (a : Nat) (w : Word) (h : m.wf = true) : (m.write a w).wf = true :=
  Memory.wfFrom_write w m 0 (Nat.zero_le a) h

/-- Reading one word after a write, in canonical form. -/
theorem Memory.read_write_from (a c : Nat) (w : Word) :
    ∀ (m : Memory) (lo : Nat), m.wfFrom lo = true → (m.write a w).read c = if c = a then w else m.read c
  | [], _, _ => by
    unfold Memory.write
    split
    · rename_i hw
      by_cases hc : c = a <;> simp [Memory.read, hw, hc]
    · by_cases hc : c = a <;> simp [Memory.read, hc]
  | (b, v) :: rest, lo, hm => by
    simp only [Memory.wfFrom, Bool.and_eq_true, decide_eq_true_eq] at hm
    obtain ⟨⟨_, _⟩, hr⟩ := hm
    simp only [Memory.write]
    rcases Nat.lt_trichotomy a b with hab | hab | hab
    · simp only [hab, if_true]
      by_cases hw : w = 0
      · simp only [hw, if_true]
        by_cases hc : c = a
        · subst hc
          simp [Memory.read, hab, Nat.ne_of_lt hab]
        · simp [hc]
      · simp only [hw, if_false]
        by_cases hc : c = a
        · simp [Memory.read, hc]
        · by_cases hca : c < a
          · simp [Memory.read, hc, hca, Nat.ne_of_lt (lt_trans hca hab), lt_trans hca hab]
          · simp [Memory.read, hc, hca]
    · subst hab
      simp only [Nat.lt_irrefl, if_true, if_false]
      by_cases hw : w = 0
      · simp only [hw, if_true]
        by_cases hc : c = a
        · subst hc
          simp [Memory.read_below (Nat.lt_succ_self c) rest hr]
        · by_cases hca : c < a
          · simp [Memory.read, hc, hca, Memory.read_below (Nat.lt_succ_of_lt hca) rest hr]
          · simp [Memory.read, hc, hca]
      · rw [if_neg hw]
        by_cases hc : c = a <;> simp [Memory.read, hc]
    · have h1 : ¬ a < b := Nat.lt_asymm hab
      have h2 : ¬ a = b := Nat.ne_of_gt hab
      have ih := Memory.read_write_from a c w rest (b + 1) hr
      simp only [h1, h2, if_false, Memory.read]
      by_cases hcb : c = b
      · subst hcb
        simp [Nat.ne_of_lt hab]
      · by_cases hlt : c < b
        · simp [hcb, hlt, Nat.ne_of_lt (lt_trans hlt hab)]
        · simpa [hcb, hlt] using ih

/-- A word just written reads as written. -/
theorem Memory.read_write_same {m : Memory} (a : Nat) (w : Word) (h : m.wf = true) : (m.write a w).read a = w := by
  simp [Memory.read_write_from a a w m 0 h]

/-- A write leaves every other word. -/
theorem Memory.read_write_other {m : Memory} {a c : Nat} (w : Word) (h : m.wf = true) (hc : c ≠ a) :
    (m.write a w).read c = m.read c := by
  simp [Memory.read_write_from a c w m 0 h, hc]

/-- Every entry after a write stood there before or is the word written. -/
theorem Memory.mem_write {a : Nat} {w : Word} {e : Nat × Word} :
    ∀ (m : Memory), e ∈ m.write a w → e ∈ m ∨ e = (a, w)
  | [], h => by
    simp only [Memory.write] at h
    split at h
    · simp at h
    · simpa using h
  | (b, v) :: rest, h => by
    simp only [Memory.write] at h
    split at h
    · split at h
      · exact .inl h
      · rcases List.mem_cons.mp h with h | h
        · exact .inr h
        · exact .inl h
    · split at h
      · split at h
        · exact .inl (List.mem_cons_of_mem _ h)
        · rcases List.mem_cons.mp h with h | h
          · exact .inr h
          · exact .inl (List.mem_cons_of_mem _ h)
      · rcases List.mem_cons.mp h with h | h
        · exact .inl (by simp [h])
        · rcases Memory.mem_write rest h with h | h
          · exact .inl (List.mem_cons_of_mem _ h)
          · exact .inr h

/-- Writing a 24-bit sample at a word of the store keeps the store's words within it. -/
theorem Memory.inStore_write {m : Memory} {a : Nat} {w : Word} (h : m.InStore) (ha : a < 262144)
    (hw : -8388608 ≤ w.toInt ∧ w.toInt ≤ 8388607) : (m.write a w).InStore := by
  intro e he
  rcases Memory.mem_write m he with h1 | h1
  · exact h e h1
  · subst h1
    exact ⟨ha, hw⟩

/-- Every ring offset of a lane stands for a word of the store. -/
theorem LaneConfig.wordAt_lt (c : LaneConfig) (n : Nat) : c.wordAt n < 262144 := by
  have h1 := c.firstPage.isLt
  have h2 := c.lastPage.isLt
  have hs : 0 < c.regionSize := by simp [LaneConfig.regionSize, Config.pageWords]
  have h3 : n % c.regionSize < c.regionSize := Nat.mod_lt n hs
  simp only [LaneConfig.wordAt, LaneConfig.regionSize, Config.pageWords] at *
  omega

/-- What an opening edge hands over (R152): nothing, or a sample in assembly whose right slot is open. -/
theorem deliverAssembly_cases (s : State) :
    s.deliverAssembly = s ∨
      ∃ a, s.spc.assembly = some a ∧ a.slot = .right ∧ s.deliverAssembly = s.deliver a := by
  unfold State.deliverAssembly
  split
  · exact .inl rfl
  · rename_i a ha
    split
    · exact .inl rfl
    · rename_i hs
      exact .inr ⟨a, ha, hs, rfl⟩

end Sys2Proof.Machine
end

