-- ==== Sys2Proof/Tests/Slice0.lean ====
section
/-! SUPPORT. Tests: the smoke tests of WellFormed, single steps from the worked examples of spec/ with the spec's own figures, and for
every obligation with hypotheses a witness that meets them. -/

namespace Sys2Proof.Tests

open Sys2Proof.Machine

-- The tests are evaluated one after another: evaluated all at once, each holds a thread of its own.
set_option Elab.async false

/-! ## WellFormed refuses ill-formed terms -/

theorem test_wf_refuses_more_request_than_crossed : (Instr.chipSelectRise [0x01, 0x02] 1).wf = false := by decide
theorem test_wf_takes_a_read_on : (Instr.chipSelectRise [0x01, 0x02] 5).wf = true := by decide
theorem test_wf_refuses_empty_request : (Instr.framingRefusal { bytes := [], overlong := false }).wf = false := by decide
theorem test_wf_refuses_poll_as_request : (Instr.framingRefusal { bytes := [0x00, 0x01], overlong := false }).wf = false := by decide
theorem test_wf_refuses_short_overlong : (Instr.framingRefusal { bytes := [0x01], overlong := true }).wf = false := by decide
theorem test_wf_refuses_long_kept :
    (Instr.framingRefusal { bytes := List.replicate 6405 0x01, overlong := true }).wf = false := by decide +kernel

/-- A frame header for tests. -/
def frame (payload : List Byte) : LframeReq :=
  { stream := 7, seq := 1, epoch := 0, pts := 0, samples := 1, channels := 1, width := 24, marks := 0, tagP := 0, cueTag := 0,
    payload := payload }

theorem test_wf_refuses_large_frame : (Instr.lframe 0 (frame (List.replicate 6383 0))).wf = false := by decide +kernel
theorem test_wf_takes_largest_frame : (Instr.lframe 0 (frame (List.replicate 6382 0))).wf = true := by decide +kernel

/-! ## The link's decoder, on bytes written out from the field table -/

theorem test_decode_tsync :
    decodeRequest { bytes := [0x04, 0x2C, 0x00, 0x08, 0x11, 0x07, 0x00, 0x01, 0x2A, 0x05, 0xF2, 0x64], overlong := false } =
      .tsync 0x2C { seq := 17, epoch := 7, house := 5000000100 } := by decide +kernel

theorem test_decode_tstrobe :
    decodeRequest { bytes := [0x05, 0x01, 0x00, 0x05, 0x00, 0x04, 0xB0, 0x09, 0x9A], overlong := false } =
      .tstrobe 1 { polarity := 0, latency := 1200, spacing := 2458 } := by decide +kernel

theorem test_decode_bad_type :
    decodeRequest { bytes := [0x0F, 0x01, 0x00, 0x00], overlong := false } =
      .framingRefusal { bytes := [0x0F, 0x01, 0x00, 0x00], overlong := false } := by decide +kernel

/-- The answer of the Message Formats chapter's worked example. -/
theorem test_answer_bytes :
    Answer.bytes { type := 0x84, tag := 0x2C, payload := accept (pairFields
      { Tracker.reset with state := .locked, epoch := 7, q := 104601 } .tracked (some (-43))) } =
    [0x84, 0x2C, 0x00, 0x0F, 0x00, 0x03, 0x02, 0x07, 0x00, 0x01, 0x98, 0x99, 0x01, 0xFF, 0xFF, 0xFF, 0xFF, 0xFF, 0xD5] := by
  decide +kernel

/-! ## States to start from -/

/-- The next state of a command; the state itself where there is none. -/
def after (c : Instr) (s : State) : State :=
  match exec c s with
  | .next t => t
  | .fault _ => s
  | .refused _ => s

/-- The newest answer's payload. -/
def answer (s : State) : List Byte := (s.link.outbound.getLast?.map Answer.payload).getD []

/-- The part after cold reset, its count running, between two boundaries. -/
def live : State := { State.reset with running := true, count := 1000013000 }

/-- The running part at a boundary that is due. -/
def atBoundary (n : Nat) : State := { live with count := BitVec.ofNat 48 (n * 32768), boundaryDue := true }

/-- An answer of one byte. -/
def oneAnswer : Answer := { type := 0x81, tag := 0, payload := [0x00] }

/-- The running part with a full outbound queue. -/
def full : State := { live with link := { live.link with outbound := List.replicate 8 oneAnswer } }

/-- A capture queue entry. -/
def entry (seq : Byte) (t : Time) : Capture := { seq := seq, time := t, origin := .edge }

/-- The tracker in REF with house time 800,000,000 ticks ahead, as the Capture Lanes and Cue Timers chapters' examples have it. -/
def refTracker : Tracker :=
  { Tracker.reset with role := .reference, state := .ref, l0 := 100000000, h0 := 900000000 }

/-- A QUEUED frame of 256 samples and two channels at a pts. -/
def queuedFrame (seq : BitVec 16) (pts : Time) (offset : Nat) : FrameRecord :=
  { status := .queued, stream := 70, seq := seq, epoch := 0, pts := some pts, samples := 256, channels := 2, offset := offset,
    disc := false, endMark := false, tag := none }

/-- A two-channel PLAY lane that is STOPPED, on pages 0 to 15, bound to stream 70, with two frames. -/
def lane2 : Lane :=
  { Lane.reset with
    config := { LaneConfig.reset with lastPage := 15, quota := 8, trimMax := 0, low := 0 }
    state := .stopped
    writeOffset := 1024
    allocs := [{ start := 0, len := 512, released := false }, { start := 512, len := 512, released := false }]
    current := some 70
    queue := [queuedFrame 1 200000000 0, queuedFrame 2 200131072 512] }

/-- The same lane PLAYING, with its cursor in its first frame. -/
def lanePlaying : Lane :=
  { lane2 with
    state := .playing
    queue := [{ queuedFrame 1 200000000 0 with status := .playing }, queuedFrame 2 200131072 512]
    cursor := some { index := 97, frac := 0 } }

/-- The part with one lane put in LN0. -/
def withLane (l : Lane) (s : State) : State := { s with lanes := s.lanes.set .ln0 l }

/-- The surroundings of a boundary in REF whose emission has a house time. -/
def env (house : Time) : BoundaryEnv :=
  { store := [], tracker := refTracker, block := 5, now := 163840, house := some house }

/-- LN0 as a CAPTURE lane on page 64 alone, as the Capture Lanes chapter's example has it. -/
def captureLane : Lane :=
  { Lane.reset with
    config := { LaneConfig.reset with direction := .capture, firstPage := 64, lastPage := 64, quota := 4, dataMark := 2,
                                      inputLatency := 2400 }
    state := .stopped }

/-- The part with the capture lane, in REF, SPC enabled in MASTER mode. -/
def capturing : State :=
  { withLane captureLane live with
    count := 50000100
    tracker := refTracker
    spc := { InPortState.reset with format := { PortFormat.reset with enable := true },
                                    inForce := { PortFormat.reset with enable := true } } }

/-! ## Single steps from the worked examples -/

/-- Strobe Capture, "spacing, injection and the order test". -/
def strobed (count : Time) (queue : List Capture) : State :=
  { live with
    count := count
    strobe := { StrobeCapture.reset with latency := 1200, lastEdge := some 1000000000, queue := queue, nextSeq := 17 } }

theorem test_strobeEdge_accepted :
    (after (.strobeEdge .rising) (strobed 1000002458 [])).strobe.queue = [entry 17 1000001258] := by decide +kernel
theorem test_strobeEdge_spaced : (after (.strobeEdge .rising) (strobed 1000001500 [])).strobe.queue = [] := by decide +kernel
theorem test_tinj : (after (.tinj 1) (strobed 1000002900 [entry 16 1000001258])).strobe.queue.getLast? =
    some { seq := 17, time := 1000002900, origin := .injected } := by decide +kernel
theorem test_tinj_stale : answer (after (.tinj 1) (strobed 1000002900 [entry 16 1000002900])) = [0x22] := by decide +kernel
theorem test_tcaps_remaining :
    (answer (after (.tcaps 1 1) (strobed 0 [entry 15 3, entry 16 4]))).take 4 = [0x00, 1, 1, 17] := by decide +kernel
theorem test_earlier_half_way : earlier (2 ^ 47) 0 = true ∧ later 0 (2 ^ 47) = false := by decide +kernel
theorem test_tstrobe_refused : answer (after (.tstrobe 1 { polarity := 2, latency := 0, spacing := 0 }) live) = [0x12] := by
  decide +kernel

/-- House Clock Tracker, "one tracked pair". -/
def tracked : State :=
  { live with
    tracker := { Tracker.reset with state := .locked, l0 := 1000000000, h0 := 5000000000, q := 100000, lastAccept := 1000000000 }
    strobe := { StrobeCapture.reset with queue := [entry 4 1002457600] } }

theorem test_tsync_rate :
    (after (.tsync 1 { seq := 4, epoch := 0, house := 5002457700 }) tracked).tracker.q = 104697 := by decide +kernel
theorem test_tsync_anchor :
    (after (.tsync 1 { seq := 4, epoch := 0, house := 5002457700 }) tracked).tracker.h0 = 5002457668 := by decide +kernel

/-- House Clock Tracker, "the timers after the last accept". -/
def accepted (state : TrackerState) (count : Time) : State :=
  { live with count := count, tracker := { Tracker.reset with state := state, lastAccept := 17372800 } }

theorem test_holdover_at : (after .holdoverExpiry (accepted .locked 29660800)).tracker.state = .holdover := by decide +kernel
theorem test_holdover_before : (after .holdoverExpiry (accepted .locked 29660799)).tracker.state = .locked := by decide +kernel
theorem test_freerun_at : (after .freerunExpiry (accepted .holdover 1504220800)).tracker.state = .freerun := by decide +kernel
theorem test_freerun_before : (after .freerunExpiry (accepted .holdover 1504220799)).tracker.state = .holdover := by
  decide +kernel

theorem test_tnow_length : (answer (after (.tnow 1) tracked)).length = 28 := by decide +kernel
theorem test_trole_reference : (after (.trole 1 { role := 1, epoch := 3 }) live).tracker.h0 = 1000013000 := by decide +kernel

/-- Playout, "three starts from LGO": the first two cases. -/
theorem test_start_places_cursor :
    ({ lane2 with state := .armed, aim := .frame }.boundaryWork (env 199990000)).lane.cursor =
      some { index := 44, frac := 7864320 } := by decide +kernel
theorem test_start_drops_late :
    ({ lane2 with state := .armed, aim := .frame }.boundaryWork (env 200140000)).lane.buffered = 175 := by decide +kernel
theorem test_start_waits :
    ({ lane2 with state := .armed, aim := .frame }.boundaryWork (env 199960000)).lane.state = .armed := by decide +kernel

/-- Playout, "joins, a gap, an overlap and an END": boundary b4. -/
theorem test_gap :
    (({ lanePlaying with
        queue := [{ queuedFrame 2 10131272 0 with status := .playing }, queuedFrame 3 10282344 512]
        cursor := some { index := 192, frac := 0 } }.boundaryWork (env 10229376)).lane.state) = .bridging := by decide +kernel

/-- Rate, "a slip behind, and its realignment": boundary k. -/
theorem test_slip :
    (({ lanePlaying with
        queue := [{ queuedFrame 1 20000000 0 with status := .playing, samples := 64 },
                  { queuedFrame 2 20032768 128 with samples := 64 }]
        cursor := some { index := 40, frac := 0 } }.boundaryWork (env 20050480)).lane.aim) = .time 20083248 := by decide +kernel

/-- Rate, "a trimmed block": the three steps. -/
theorem test_trimmed_steps :
    [150, -150, 2000].map (trimmedStep { refTracker with q := 104697 } LaneConfig.reset) = [16782425, 16772825, 16786014] := by
  decide +kernel

/-- Rate, "three interpolated samples". -/
theorem test_interpolated :
    [interpolate 1000000 1000512 8388608, interpolate 1000512 1001000 8393817, interpolate 1001000 999800 8399026] =
      [1000256, 1000756, 1000399] := by decide +kernel

/-- Mixing, "a fade down, cut short": the first block of each ramp. -/
theorem test_ramp_steps :
    [(Channel.rampStep { map := .stereo, current := 32768, start := 32768, target := 0, n := 5, b := 0 }).current,
      (Channel.rampStep { map := .stereo, current := 19661, start := 19661, target := 40000, n := 4, b := 0 }).current] =
    [26215, 24745] := by decide +kernel

/-- Mixing, "one position of SPA": LN2's contribution and the scaled right side. -/
theorem test_contribution : contribution .mono 20000 (1000001, 0) = (305175, 305175) := by decide +kernel
theorem test_scaled : [clampSample (scaled 40000 7305175), clampSample (scaled 40000 (-194825))] = [8388607, -237824] := by
  decide +kernel

theorem test_mgain_ramp :
    ((after (.mgain 1 { lane := 0, port := 0, map := 0, gain := 40000, ramp := 0 }) live).mixer.channel .ln0 .spa).n = 1 := by
  decide +kernel

/-- The default ducking with LN0's class given. -/
def duck (class0 : Byte) : MduckReq :=
  { d1 := 16384, d2 := 8192, d3 := 4096, attack := 4, release := 0, class0 := class0, class1 := 0, class2 := 0, class3 := 0,
    class4 := 2, class5 := 3 }

theorem test_mduck_class : answer (after (.mduck 1 (duck 4)) live) = [0x12] := by decide +kernel
theorem test_mduck_adjusted : (answer (after (.mduck 1 (duck 3)) live)).head? = some 0x01 := by decide +kernel

/-- Serial Audio Ports, "enabling SPB": the period that begins block 1,000, and "the hang after a lane stops". -/
def emitting (count : Time) : State :=
  { live with
    count := count
    ports := { live.ports with spb := { OutPortState.reset with
      inForce := { PortFormat.reset with enable := true, width := .w16, alignment := .justified }
      emission := [{ base := 32768000, pairs := (256, -512) :: List.replicate 63 (0, 0) }] } } }

theorem test_samplePeriod_first : (after (.samplePeriod .spb) (emitting 32801280)).ports.spb.staging = (1, -2) := by decide +kernel
theorem test_samplePeriod_before : (after (.samplePeriod .spb) (emitting 32800768)).ports.spb.staging = (0, 0) := by
  decide +kernel
theorem test_hang_tail :
    (({ OutPortState.reset with hang := 1, latency := 40000 }).hangStep 172228608 false).tailEnd = some 172268608 := by
  decide +kernel
theorem test_hangTailEnd :
    ((after (.hangTailEnd .spa) { live with
        count := 172268608
        ports := { live.ports with spa := { OutPortState.reset with tailEnd := some 172268608 } } }).ports.spa.active) = false := by
  decide +kernel

/-- Capture Lanes, "a capture lane filling, overrunning and halted". -/
theorem test_lgo_capture : (after (.lgo 1 0) capturing).lanes.ln0.runNumber = 1 := by decide +kernel
theorem test_capture_pts :
    (closedRecord refTracker captureLane { record := queuedFrame 0 0 0, written := 256, first := 50000384 }).pts =
      some 849997984 := by decide +kernel
theorem test_lfetch_empty : answer (after (.lfetch 1 0) capturing) = [0x3B] := by decide +kernel
theorem test_lhalt_off : answer (after (.lhalt 1 { lane := 3, flush := 0 }) capturing) = [0x13] := by decide +kernel

/-- An opening edge hands the sample in assembly to the RUNNING lane, which begins frame A with it. -/
def delivering : State :=
  { withLane { captureLane with state := .running, entryTime := some 50000100, runNumber := 1, discPending := true } capturing with
    count := 50000896
    spc := { capturing.spc with
      assembly := some { opened := 50000384, format := capturing.spc.inForce, slot := .right, clocked := true,
                         leftBits := List.replicate 23 false ++ [true], rightBits := List.replicate 24 true } } }

theorem test_spcSampleComplete :
    [(after .spcSampleComplete delivering).store.read 65536,
      (after .spcSampleComplete delivering).store.read 65537] = [1, 0xFFFFFFFF] := by decide +kernel
theorem test_spcBitTaken :
    ((after (.spcBitTaken true) { delivering with count := 50000900 }).spc.assembly.map Assembly.rightBits) =
      some (List.replicate 24 true) := by decide +kernel
theorem test_spcBitTaken_off_place : after (.spcBitTaken true) delivering = delivering := by decide +kernel
theorem test_spcWordSelectEdge :
    ((after .spcWordSelectEdge { delivering with count := 50000640 }).spc.assembly.map Assembly.clocked) = some false := by
  decide +kernel

/-- SPC in SLAVE mode under LEFT-HIGH, its word select low, so that the rise, the opening edge, is next (R150). -/
def slaveHigh : State :=
  { delivering with
    count := 50000777
    spc := { delivering.spc with modeInForce := .slave, selectLevel := some false, inForce := { capturing.spc.inForce with polarity := .leftHigh } } }

theorem test_spcSampleComplete_left_high : (after .spcSampleComplete slaveHigh).lanes.ln0.fill = 512 := by decide +kernel
/-- Under LEFT-LOW that rise is no opening edge: from high it is the fall (R150). -/
theorem test_spcSampleComplete_left_low :
    let s := { slaveHigh with spc := { slaveHigh.spc with inForce := capturing.spc.inForce } }
    after .spcSampleComplete s = s := by decide +kernel

/-- A boundary with SPC in SLAVE mode and LN0 RUNNING. -/
def slaveBoundary (watch : ClockWatch) : State :=
  { atBoundary 9 with
    lanes := delivering.lanes
    spc := { delivering.spc with mode := .slave, watch := watch } }

/-- A boundary that takes SPC from SLAVE to MASTER within the left slot of a sample that opened after the lane entered RUNNING (R152). -/
def cutLeft : State :=
  let s := slaveBoundary .idle
  let a : Assembly :=
    { opened := 294900, format := s.spc.inForce, slot := .left, clocked := true, leftBits := [true], rightBits := [] }
  after .blockBoundary { s with
    lanes := s.lanes.set .ln0 { s.lanes.ln0 with entryTime := some 294000 }
    spc := { s.spc with mode := .master, modeInForce := .slave, assembly := some a } }

/-- The opening edge there begins the next sample and hands the lane nothing: the old one's right slot never opened. -/
theorem test_spc_lone_left_slot :
    let t := after .spcSampleComplete cutLeft
    cutLeft.spc.modeInForce = .master ∧ cutLeft.lanes.ln0.takesStamp 294900 = true ∧
      t.spc.assembly.map Assembly.opened = some 294912 ∧ t.lanes = cutLeft.lanes ∧ t.store = cutLeft.store := by
  decide +kernel

theorem test_inputClockLoss :
    (after .inputClockLoss { delivering with spc := { delivering.spc with watch := .watching 49935360 } }).spc.watch = .lost := by
  decide +kernel

/-- Cue Timers, "a periodic cue, stopped and run again": boundary 6,104. -/
theorem test_cue_advances :
    ((Cue.advance { Cue.reset with mode := .every, target := 949152000, interval := 24576000 } 1000015872).target,
      (Cue.advance { Cue.reset with mode := .every, target := 949152000, interval := 24576000 } 1000015872).skipped) =
    (1022880000, 2) := by decide +kernel

/-- Cue Timers, "a gated block count": CRUN with preset and run, and the expiry at b4. -/
def blocksCue : Cue := { Cue.reset with mode := .blocks, reload := 2, state := .running }

theorem test_crun_preset_run : (after (.crun 1 { cue := 2, choices := 5 }) { live with cues :=
    { live.cues with cue2 := { Cue.reset with mode := .blocks, reload := 2 } } }).cues.cue2.count = 2 := by decide +kernel
theorem test_blocks_expire : (blocksCue.test none true).1.count = 2 ∧ (blocksCue.test none true).2 = true := by decide +kernel

/-- BLOCK_BOUNDARY: CUE2 expires with its line, and hands its HALT to LN3. -/
theorem test_boundary_expires_cue :
    ((after .blockBoundary { atBoundary 9 with cues := { live.cues with cue2 :=
        { blocksCue with action := .halt .ln3 false } } }).lanes.ln3.actions.map LaneAction.cue) = [.cue2] := by decide +kernel

/-- Lanes: the clamps of an LCFG, and an LBIND refused in OFF. -/
def config (enable : Byte) : LcfgReq :=
  { lane := 0, enable := enable, direction := 0, firstPage := 0, lastPage := 15, quota := 8, channels := 2, policy := 0,
    leadLimit := 49152000, low := 4800, high := 19200, roomOffset := 0, gs := 10, trimMax := 8389, slipLimit := 24576,
    frameSize := 300, dataMark := 4, inputLatency := 0 }

theorem test_lcfg_clamps :
    ((after (.lcfg 1 (config 1)) live).lanes.ln0.config.high, (after (.lcfg 1 (config 1)) live).lanes.ln0.config.frameSize) =
      (8192, 256) := by decide +kernel
theorem test_lbind_off : answer (after (.lbind 1 { lane := 0, streamP := 1, stream := 70, timeP := 0, time := 0 }) live) = [0x13] := by
  decide +kernel

/-- Streams, frames: LFRAME of stream 531 while no lane is bound to it, and the lane's late point in PLAYING. -/
theorem test_lframe_no_lane : answer (after (.lframe 1 { frame [0, 0, 0] with stream := 531 }) (withLane lanePlaying live)) = [0x30] := by
  decide +kernel
theorem test_late_point : lanePlaying.latePoint 0 = 200049664 := by decide +kernel
theorem test_lstat_length : (answer (after (.lstat 1 0) (withLane lanePlaying live))).length = 118 := by decide +kernel

/-- Message Link, "a stall, a resend and a discard": the status byte of T1 (ATTN, 2 free slots, 8 queued), and the discard of T4. -/
theorem test_status_byte : full.statusByte = 0xA8 := by decide +kernel
theorem test_full_discards :
    let s := { full with link := { full.link with inbound := [⟨[0x01], false⟩, ⟨[0x39], false⟩] } }
    (after (.chipSelectRise [0x41, 0x00] 2) (after .chipSelectFall s)).link.inbound = s.link.inbound := by decide +kernel

/-- Message Link, "a warm reset with a request behind it". -/
theorem test_xreset_when_full : (after (.xreset 9) full).link.outbound = [{ type := 0xF0, tag := 9, payload := [0x00] }] := by
  decide +kernel

theorem test_coldReset_line : (after .coldReset live).lines.gl0.function = .input := by decide +kernel
theorem test_countStart_boot : (after .countStart State.reset).link.trackerFlags = 0x01 := by decide +kernel
theorem test_gset_lock : answer (after (.gset 1 { line := 4, function := 4, cue := 0, level := 0 }) { live with tracker := refTracker })
    = [0x00, 4, 4, 0, 0, 1] := by decide +kernel
theorem test_eclear_reserved : answer (after (.eclear 1 0x100) live) = [0x12] := by decide +kernel
theorem test_emask_enables : (after (.emask 1 0xE000) live).link.enables = 0xE000 := by decide +kernel
theorem test_eread_length : (answer (after (.eread 1) live)).length = 31 := by decide +kernel
/-- A TNOW request in the inbound buffer. -/
def rawTnow : RawRequest := { bytes := [0x01, 0x05, 0x00, 0x00], overlong := false }

/-- Message Link, R189: a request that comes behind a waiting one waits in its turn. -/
theorem test_request_waits_its_turn :
    (after (.tnow 9) { live with link := { live.link with inbound := [rawTnow] } }).link.inbound.map RawRequest.bytes =
      [[0x01, 0x05, 0x00, 0x00], [0x01, 0x09, 0x00, 0x00]] := by decide +kernel

/-- A transaction in progress whose verdict was OPEN. -/
def openTx : Transaction := { status := 0x20, head := none, full := false, headLive := false }

/-- Message Link, R187, log 4: a request command that has to wait leaves the slot that the transaction in progress is promised. -/
theorem test_promised_slot_is_kept :
    let s := { live with link := { live.link with inbound := [rawTnow], transaction := some openTx } }
    (after (.tnow 9) s).link.inbound.map RawRequest.bytes = [[0x01, 0x05, 0x00, 0x00]] ∧
      (after (.chipSelectRise [0x70] 1) (after (.tnow 9) s)).link.inbound.map RawRequest.bytes =
        [[0x01, 0x05, 0x00, 0x00], [0x70]] := by decide +kernel

/-- Serial Audio Ports, R143, R150: a PCFG that is taken before the boundary of its own tick decides who makes the edge at B_k: in SLAVE
mode none joins the queue, in MASTER mode one does. -/
theorem test_periods_after_boundary :
    let p := { live.spc with format := { live.spc.format with enable := true } }
    let s := fun m : ClockMode => after .blockBoundary { atBoundary 9 with periodsDue := true, spc := { p with mode := m } }
    (s .slave).periodEvents = [] ∧ (s .master).periodEvents = [.spcSampleComplete] := by decide +kernel

theorem test_idle_tick : (match step live with
    | .next t => t.count
    | _ => 0) = 1000013001 := by decide +kernel

/-! ## Witnesses: for every obligation with hypotheses, a state and operands that meet them -/

/-- The running part answers. -/
theorem live_ready : live.Ready := ⟨rfl, by decide, rfl⟩

theorem witness_StepRunsFrontCommand : ({ live with pending := [.tnow 1] } : State).pending = .tnow 1 :: [] := rfl

/-- An XRESET request. -/
def rawXreset : RawRequest := { bytes := [0x70, 0x05, 0x00, 0x00], overlong := false }

theorem witness_IdleStepServesOldestRequest :
    let s := { live with link := { live.link with inbound := [rawTnow] } }
    s.pending = [] ∧ s.running = true ∧ s.periodsDue = false ∧ s.link.inbound = rawTnow :: [] ∧ s.link.outbound.length < 8 :=
  ⟨rfl, rfl, rfl, rfl, by decide⟩
theorem witness_IdleStepServesOldestRequest_xreset :
    let s := { full with link := { full.link with inbound := [rawXreset] } }
    s.pending = [] ∧ s.running = true ∧ s.periodsDue = false ∧ s.link.inbound = rawXreset :: [] ∧
      ∃ tag, decodeRequest rawXreset = .xreset tag :=
  ⟨rfl, rfl, rfl, rfl, 5, by decide +kernel⟩
theorem witness_IdleStepServesOldestRequest_waits :
    let s := { live with link := { live.link with inbound := [rawTnow] } }
    (∃ ty tag p, (Instr.xreset 9).request? = some (ty, tag, p)) ∧ s.running = true ∧ s.link.inbound ≠ [] ∧
      full.running = true ∧ 8 ≤ full.link.outbound.length ∧ (∀ tag, Instr.tnow 1 ≠ .xreset tag) ∧
      framingAnswer ⟨[0x01], false⟩ ≠ none :=
  ⟨⟨_, _, _, rfl⟩, rfl, by decide, rfl, by decide, nofun, by decide +kernel⟩

/-- With an OPEN transaction in progress one request can wait, and a second is discarded. -/
theorem witness_IdleStepServesOldestRequest_promised :
    let s := { full with link := { full.link with transaction := some openTx } }
    let t := { live with link := { live.link with inbound := [rawTnow], transaction := some openTx } }
    s.running = true ∧ 8 ≤ s.link.outbound.length ∧ s.link.inbound.length + (if openTx.full then 0 else 1) < 2 ∧
      t.running = true ∧ t.link.inbound ≠ [] ∧ ¬ t.link.inbound.length + (if openTx.full then 0 else 1) < 2 := by decide

theorem witness_IdleStepTakesATick :
    let s := { full with count := 1000013823, link := { full.link with inbound := [rawTnow] } }
    (1000013824 : Time) = s.count + 1 ∧ true = decide ((1000013824 : Time).toNat % 32768 = 0) ∧
      s.pending = [] ∧ s.running = true ∧ s.periodsDue = false ∧
      ∀ raw rest, s.link.inbound = raw :: rest → 8 ≤ s.link.outbound.length ∧ ∀ tag, decodeRequest raw ≠ .xreset tag := by
  refine ⟨by decide +kernel, by decide +kernel, rfl, rfl, rfl, fun raw rest h => ?_⟩
  cases h
  have e : decodeRequest rawTnow = .tnow 5 := by decide +kernel
  exact ⟨by decide, fun tag => by 
    rw [e]
    simp⟩

theorem witness_HeldUntilCountStarts :
    State.reset.running = false ∧ State.reset.link.transaction = none ∧ Instr.blockBoundary ≠ .coldReset ∧
      Instr.blockBoundary ≠ .countStart := ⟨rfl, rfl, by decide, by decide⟩

/-- The cold values that the statement writes out are those of `State.reset`'s parts. -/
theorem witness_ColdResetGivesColdValues :
    PortFormat.reset = { enable := false, width := .w24, polarity := .leftLow, alignment := .delayed } ∧
      Channel.reset = { map := .stereo, current := 0, start := 0, target := 0, n := 1, b := 1 } ∧
      (OutPortState.reset.format = PortFormat.reset ∧ OutPortState.reset.inForce = PortFormat.reset) ∧
      (Lane.reset.config.leadLimit = 49152000 ∧ Lane.reset.config.high = 19200 ∧ Lane.reset.state = .off) ∧
      (Cue.reset.mode = .at ∧ Cue.reset.state = .stopped) ∧ Line.reset = { function := .input, stored := false } := by
  decide +kernel

theorem witness_CountStartSetsBoot : State.reset.running = false ∧ State.reset.flagEnabled (.tracker .boot) = true :=
  ⟨rfl, by decide +kernel⟩

theorem witness_WarmResetKeepsAndClears : full.running = true := rfl

/-- A boundary with SPA enabled and SPB disabled. -/
def portBoundary : State :=
  { atBoundary 9 with
    ports := { State.reset.ports with spa := { OutPortState.reset with format := { PortFormat.reset with enable := true } } } }

theorem witness_BoundaryTakesEveryBlock :
    portBoundary.running = true ∧ portBoundary.boundaryDue = true ∧ (portBoundary.ports.get .spa).format.enable = true ∧
      (portBoundary.ports.get .spb).format.enable = false := ⟨rfl, rfl, rfl, rfl⟩

/-- That boundary with LN0 PLAYING on SPA at the house time of the block's emission, 800,328,192, and one with SPA about to fall still. -/
def soundingBoundary : State :=
  { withLane { lanePlaying with
      queue := [{ queuedFrame 1 800278528 0 with status := .playing }, queuedFrame 2 800409600 512] } portBoundary with
    tracker := refTracker
    mixer := Mixer.reset.setChannel .ln0 .spa { map := .stereo, current := 5, start := 5, target := 5, n := 1, b := 1 } }

/-- A boundary at which SPA, silent, has a hang count of 1 and a latency of 40,000. -/
def hangBoundary : State :=
  { portBoundary with ports := { portBoundary.ports with spa := { portBoundary.ports.spa with hang := 1, latency := 40000 } } }

theorem witness_BoundaryTakesEveryBlock_hang :
    soundingBoundary.running = true ∧ soundingBoundary.boundaryDue = true ∧
      (after .blockBoundary soundingBoundary).lanes.ln0.state = .playing ∧
      ((after .blockBoundary soundingBoundary).mixer.channel .ln0 .spa).current ≠ 0 ∧
      (after .blockBoundary soundingBoundary).ports.spa.hang = 256 ∧
      (∀ i, ((after .blockBoundary hangBoundary).lanes.get i).state ≠ .playing) ∧
      (after .blockBoundary hangBoundary).ports.spa.tailEnd = some (294912 + 40000) := by
  refine ⟨rfl, rfl, by decide +kernel, by decide +kernel, by decide +kernel, ?_, by decide +kernel⟩
  intro i
  cases i <;> decide +kernel
theorem witness_BoundaryTakesEveryBlock_watch :
    (after .blockBoundary (slaveBoundary .idle)).spc.watch = .watching 294912 ∧
      (after .blockBoundary (slaveBoundary (.watching 7))).spc.watch = .watching 7 ∧
      (after .blockBoundary (slaveBoundary (.watching 7))).lanes.ln0.isRunning = true ∧
      (slaveBoundary .lost).lanes.ln0.runNumber = (after .blockBoundary (slaveBoundary .lost)).lanes.ln0.runNumber := by
  decide +kernel

theorem witness_LaneBlockInRange :
    (env 199990000).store.InStore ∧ ∀ c, lanePlaying.cursor = some c → c.frac < 2 ^ 24 := by
  refine ⟨by simp [env, Memory.InStore], fun c h => ?_⟩
  cases h
  decide

theorem witness_StartAlignmentFormsAndDrops :
    ((7 - 7 : Time)).toInt ≤ 0 ∧
      (0 < ((8 - 7 : Time)).toInt ∧ ((8 - 7 : Time)).toInt ≤ 63 * 512) ∧
      (0 < ((32263 - 7 : Time)).toInt ∧ ((32263 - 7 : Time)).toInt ≤ 63 * 512) ∧
      63 * 512 < ((32264 - 7 : Time)).toInt := by decide +kernel
theorem witness_StartAlignmentFormsAndDrops_drops :
    (1 : Nat) = (lane2.queue.takeWhile (fun f => decide ((f.endTime - 200140000).toInt ≤ 0))).length ∧
      lane2.counters.lateDrops ≤ 65535 ∧ lane2.counters.slipDrops ≤ 65535 := by decide +kernel

/-- The lane PLAYING at the start of a frame of 256 samples. -/
def laneTrim : Lane := { lanePlaying with cursor := some { index := 0, frac := 0 } }

/-- The statement's common premises at a boundary with target `t`, for a block that stays in the lane's first frame. -/
def trimPremises (l : Lane) (t : Time) (step start : Nat) : Prop :=
  l.config.direction = .play ∧ l.actions = [] ∧ l.switch = none ∧ l.config.policy = .strict ∧
    (env t).tracker.state = .ref ∧ (env t).house = some t ∧ t = t - BitVec.ofInt 48 l.config.roomOffset ∧ 0 < step ∧
    start + 64 * step ≤ (256 - 1) * 2 ^ 24

theorem witness_PlayingTrimsSlipsAndRealigns_trim :
    trimPremises laneTrim 200000000 16777216 0 ∧ laneTrim.state = .playing ∧ laneTrim.cursor = some { index := 0, frac := 0 } ∧
      (0 : Int) = ((200000000 : Time) - (200000000 + BitVec.ofNat 48 0)).toInt ∧ (0 : Int).natAbs ≤ laneTrim.config.slipLimit ∧
      ((16777216 : Nat) : Int) = 2 ^ 24 + (2 * refTracker.q + 256) / 512
        + max (-(laneTrim.config.trimMax : Int)) (min laneTrim.config.trimMax (0 * 2 ^ (15 - laneTrim.config.gs))) := by
  unfold trimPremises
  decide +kernel
theorem witness_PlayingTrimsSlipsAndRealigns_slip :
    trimPremises laneTrim 200030000 16777216 0 ∧ laneTrim.state = .playing ∧
      (30000 : Int) = ((200030000 : Time) - (200000000 + BitVec.ofNat 48 0)).toInt ∧
      laneTrim.config.slipLimit < (30000 : Int).natAbs ∧
      ((16777216 : Nat) : Int) = 2 ^ 24 + (2 * refTracker.q + 256) / 512 := by
  unfold trimPremises
  decide +kernel

/-- Lanes that wait: ARMED, STARVED, BRIDGING toward the next frame, BRIDGING after a slip behind, and HELD. -/
def laneArmed : Lane := { lane2 with state := .armed, aim := .frame }
def laneStarved : Lane := { lane2 with state := .starved }
def laneBridging : Lane := { lane2 with state := .bridging, aim := .frame }
def laneBehind : Lane := { lane2 with state := .bridging, aim := .time 200140000, slipMark := some .behind }
def laneHeld : Lane := { lanePlaying with state := .held }

/-- Every waiting state with a frame queued, and with none; and a PLAYING lane whose cursor's frame a purge released. -/
theorem witness_PlayingTrimsSlipsAndRealigns_states :
    (∀ l ∈ [laneArmed, laneStarved, laneBridging, laneBehind, laneHeld], l.config.direction = .play ∧ l.actions = [] ∧
        l.switch = none ∧ l.config.policy = .strict ∧ ∃ g more, l.queue = g :: more ∧ g.time = 200000000) ∧
      laneBridging.aim = .frame ∧ laneBehind.aim = .time 200140000 ∧ laneBehind.slipMark = some .behind ∧
      laneHeld.cursor = some { index := 97, frac := 0 } ∧
      ({ laneArmed with queue := [] }.queue = [] ∧ { laneStarved with queue := [] }.queue = []) ∧
      (({ laneBridging with queue := [] } : Lane).aim = .frame ∧ ∀ a, Aim.frame ≠ .time a) ∧
      (({ lanePlaying with cursor := none } : Lane).state = .playing ∧ ({ laneHeld with cursor := none } : Lane).state = .held) := by
  refine ⟨?_, rfl, rfl, rfl, rfl, ⟨rfl, rfl⟩, ⟨rfl, nofun⟩, rfl, rfl⟩
  intro l h
  simp only [List.mem_cons, List.not_mem_nil, or_false] at h
  obtain rfl | rfl | rfl | rfl | rfl := h <;> exact ⟨rfl, rfl, rfl, rfl, _, _, rfl, rfl⟩
/-- Alignment to 200,000,000 waits, starts in the first frame from position 20 on (or, for a frame with a tag that is QUEUED, records
it), drops the first frame, and empties the queue. -/
theorem witness_PlayingTrimsSlipsAndRealigns_start :
    alignForm 200000000 199960000 = none ∧ alignForm 200000000 199990000 = some (20, 200000240) ∧
      (laneArmed.dropLate 200000240 2).queue = laneArmed.queue ∧ ((200000000 : Time) - 200000240).toInt ≤ 0 ∧ 20 + 44 = 64 ∧
      ((16777216 : Nat) : Int) = 2 ^ 24 + (2 * refTracker.q + 256) / 512 ∧
      7864320 = ((200000240 : Time) - 200000000).toInt.toNat * 2 ^ 15 ∧ 7864320 + 44 * 16777216 ≤ (256 - 1) * 2 ^ 24 ∧
      alignForm 200000000 200140000 = some (0, 200140000) ∧
      (laneArmed.dropLate 200140000 2).queue = [queuedFrame 2 200131072 512] ∧
      alignForm 200000000 200262144 = some (0, 200262144) ∧ (laneArmed.dropLate 200262144 2).queue = [] := by decide +kernel
/-- A next frame that begins after the start content time: too late for the block, or within it. -/
theorem witness_PlayingTrimsSlipsAndRealigns_gap :
    let l := fun pts => { laneArmed with queue := [queuedFrame 1 200000000 0, queuedFrame 2 pts 512] }
    ((l 200300000).dropLate 200131072 2).queue = [queuedFrame 2 200300000 512] ∧
      0 < ((200300000 : Time) - 200131072).toInt ∧ alignForm 200300000 200131072 = none ∧
      ((l 200140000).dropLate 200131072 2).queue = [queuedFrame 2 200140000 512] ∧
      0 < ((200140000 : Time) - 200131072).toInt ∧ alignForm 200140000 200131072 = some (18, 200140288) := by decide +kernel

/-- A frame of 64 samples at a pts. -/
def shortFrame (seq : BitVec 16) (pts : Time) : FrameRecord := { queuedFrame seq pts 0 with samples := 64 }

/-- Each outcome of a frame end: within the frame, END, an empty queue, a gap, a join and an overlap with or without a switch. -/
theorem witness_FrameEndOutcomes :
    BlockKind.trim ≠ .stop ∧ (shortFrame 2 0).status ≠ .playing ∧
      (10 + (0 + 16777216) / 2 ^ 24 < (shortFrame 1 0).samples ∧ (shortFrame 1 0).samples ≤ 63 + (0 + 16777216) / 2 ^ 24) ∧
      ({ shortFrame 1 0 with endMark := true }.endMark = true ∧ (shortFrame 1 0).endMark = false) ∧
      256 < ((shortFrame 2 33025).time - ((shortFrame 1 0).time + BitVec.ofNat 48 (512 * 64))).toInt ∧
      ((shortFrame 2 33024).time - ((shortFrame 1 0).time + BitVec.ofNat 48 (512 * 64))).toInt = 256 ∧
      ((shortFrame 2 32000).time - ((shortFrame 1 0).time + BitVec.ofNat 48 (512 * 64))).toInt = -768 ∧
      (2 : Nat) = (64 - 64) + ((-2 * (-768 : Int) + 512) / 1024).toNat ∧ 2 < (shortFrame 2 32000).samples ∧
      lanePlaying.switch = none ∧
      ({ lanePlaying with switch := some { stream := 70, time := 0 } }.switch = some { stream := 70, time := 0 } ∧
        (70 : StreamId) = (shortFrame 2 32000).stream ∧ (shortFrame 2 32000).status = .queued) := by
  decide +kernel

/-- A PLAYING lane at the last sample of a frame of 64, with other frames behind it. -/
def laneLast (frac : Nat) (last : FrameRecord) (behind : List FrameRecord) : Lane :=
  { lanePlaying with queue := { last with status := .playing } :: behind, cursor := some { index := 63, frac := frac } }

/-- An advance of two samples from the last of 64 passes a joined frame of one sample too (R99). -/
theorem test_advance_passes_a_frame :
    let l := laneLast 16777215 (shortFrame 1 0) [{ shortFrame 2 32768 with samples := 1 }, shortFrame 3 33280]
    let t := l.advance .trim 16777217 (shortFrame 1 0) { index := 63, frac := 16777215 }
    t.queue.map FrameRecord.seq = [3] ∧ t.cursor = some { index := 0, frac := 0 } ∧ t.state = .playing := by decide +kernel
theorem witness_FrameEndOutcomes_passed :
    (65 : Nat) = 63 + (16777215 + 16777217) / 2 ^ 24 ∧ (1 : Nat) = (65 - 64) + 0 ∧
      { shortFrame 2 32768 with samples := 1 }.samples ≤ 1 ∧
      ((shortFrame 2 32768).time - ((shortFrame 1 0).time + BitVec.ofNat 48 (512 * 64))).toInt = 0 := by decide +kernel

/-- The left value at a frame's last sample of 10, half way to the next frame's first of 20; to itself at a DISCONTINUITY, at an END and
at a gap (R99, R121). -/
theorem test_last_sample :
    let store : Memory := [(126, 10), (512, 20)]
    let first := fun last next => (produce store .trim 16777216 1 0 (laneLast 8388608 last [next])).2.map Prod.fst
    let next := { shortFrame 2 32768 with offset := 512 }
    [first (shortFrame 1 0) next, first (shortFrame 1 0) { next with disc := true },
      first { shortFrame 1 0 with endMark := true } next, first (shortFrame 1 0) { next with pts := some 33025 }] =
      [[15], [10], [10], [10]] := by decide +kernel
/-- After the last sample of an END frame every position is silent (R101). -/
theorem test_silent_after_end :
    (produce [(126, 10), (512, 20)] .trim 16777216 3 0 (laneLast 0 { shortFrame 1 0 with endMark := true } [shortFrame 2 32768])).2 =
      [(10, 0), (0, 0), (0, 0)] := by decide +kernel
theorem witness_FrameEndOutcomes_last :
    (shortFrame 1 0).samples ≤ 63 + 1 ∧ (shortFrame 2 32768).disc = false ∧ { shortFrame 2 32768 with disc := true }.disc = true ∧
      (0 : Nat) = ((8388608 + 16777216) / 2 ^ 24 - 1) + 0 ∧ 0 < (shortFrame 2 32768).samples := by decide

/-- The walk of a run of positions from a lane. -/
def walkFrom (k : BlockKind) (step : Nat) (l : Lane) : Nat → Lane
  | 0 => l
  | n + 1 =>
    match (walkFrom k step l n).cursor, (walkFrom k step l n).queue with
    | some c, f :: _ => (walkFrom k step l n).advance k step f c
    | _, _ => walkFrom k step l n

theorem witness_FrameEndOutcomes_walk (k : BlockKind) (step : Nat) (l : Lane) :
    (∀ i, ((walkFrom k step l i).cursor = none ∨ (walkFrom k step l i).queue = []) →
        walkFrom k step l (i + 1) = walkFrom k step l i) ∧
      (∀ i c f rest, (walkFrom k step l i).cursor = some c → (walkFrom k step l i).queue = f :: rest →
        walkFrom k step l (i + 1) = (walkFrom k step l i).advance k step f c) := by
  refine ⟨fun i h => ?_, fun i c f rest hc hq => ?_⟩
  · simp only [walkFrom]
    rcases h with h | h
    · simp [h]
    · cases (walkFrom k step l i).cursor <;> simp [h]
  · simp [walkFrom, hc, hq]

/-- The lane PLAYING six samples before the end of its first frame, which the second joins. -/
def laneNearEnd : Lane := { lanePlaying with cursor := some { index := 250, frac := 0 } }

/-- A trimming block that crosses the join. -/
theorem test_block_crosses_a_join :
    let t := (laneNearEnd.boundaryWork (env 200128000)).lane
    t.queue.map FrameRecord.seq = [2] ∧ t.cursor = some { index := 58, frac := 0 } ∧ t.state = .playing := by decide +kernel
/-- On target, 30,000 ticks behind, in STOPPING, and starting from ARMED. -/
theorem witness_FrameEndOutcomes_blocks :
    (laneNearEnd.config.direction = .play ∧ laneNearEnd.actions = [] ∧ laneNearEnd.switch = none ∧
        laneNearEnd.config.policy = .strict ∧ (env 200128000).tracker.state = .ref ∧ laneNearEnd.config.roomOffset = 0 ∧
        laneNearEnd.state = .playing) ∧
      (0 : Int) = ((200128000 : Time) - (200000000 + BitVec.ofNat 48 (512 * 250 + 0 / 2 ^ 15))).toInt ∧
      laneNearEnd.config.slipLimit < ((200158000 : Time) - (200000000 + BitVec.ofNat 48 (512 * 250 + 0 / 2 ^ 15))).toInt.natAbs ∧
      ((16777216 : Nat) : Int) = 2 ^ 24 + (2 * refTracker.q + 256) / 512
        + max (-(laneNearEnd.config.trimMax : Int)) (min laneNearEnd.config.trimMax (0 * 2 ^ (15 - laneNearEnd.config.gs))) ∧
      ({ laneNearEnd with state := .stopping, halt := some { fromCursor := true, flush := false } } : Lane).state = .stopping := by
  decide +kernel
theorem witness_FrameEndOutcomes_start :
    ∃ n j, laneArmed.align 200128000 200000000 = .placed n j := ⟨_, _, rfl⟩

theorem witness_PurgeLeavesOnlyTheEpochs :
    (capturing.lanes.get .ln0).config.direction = .capture ∧ (capturing.lanes.get .ln1).config.direction = .play := ⟨rfl, rfl⟩

/-- A part in epoch 1 whose LN0 plays a frame of epoch 0 with one of epoch 1 behind it, and a low watermark of 300 samples. -/
def purging : State :=
  { withLane { lanePlaying with
      config := { lanePlaying.config with low := 300, high := 8192 }
      queue := [{ queuedFrame 1 200000000 0 with status := .playing }, { queuedFrame 2 200131072 512 with epoch := 1 }] } live with
    tracker := { refTracker with epoch := 1 } }

/-- A purge of the PLAYING frame: the cursor, the ring's oldest words and the watermark crossed go with it. -/
theorem witness_PurgeLeavesOnlyTheEpochs_playing :
    let l := purging.lanes.get .ln0
    let k := purging.purge.lanes.get .ln0
    (∃ f ∈ l.queue, f.epoch ≠ purging.tracker.epoch ∧ f.status = .playing) ∧ l.cursor ≠ none ∧ k.cursor = none ∧
      l.buffered = 415 ∧ k.buffered = 256 ∧ k.flags = l.flags ||| 0x10 ∧ (l.reclaimOffset, k.reclaimOffset) = (0, 512) ∧
      k.state = .playing := by
  exact ⟨⟨_, .head _, by decide, rfl⟩, by decide, by decide +kernel, by decide +kernel, by decide +kernel, by decide +kernel,
    by decide +kernel, by decide +kernel⟩

/-- A lane in STOPPING from its cursor. -/
def laneStopping : Lane := { lanePlaying with state := .stopping, halt := some { fromCursor := true, flush := true } }

theorem witness_StoppingCompletes :
    laneStopping.config.direction = .play ∧ laneStopping.state = .stopping ∧
      laneStopping.halt = some { fromCursor := true, flush := true } ∧ laneStopping.actions = [] := ⟨rfl, rfl, rfl, rfl⟩
/-- The fade-out from a cursor 336 ticks behind its target, with a trim limit of 8389 that the gain would pass. -/
theorem witness_StoppingCompletes_fade :
    let l := { laneStopping with config := { laneStopping.config with trimMax := 8389, gs := 10 } }
    trimPremises l 200050000 16785605 (97 * 2 ^ 24 + 0) ∧ l.state = .stopping ∧ l.halt = some { fromCursor := true, flush := true } ∧
      l.cursor = some { index := 97, frac := 0 } ∧
      (336 : Int) = ((200050000 : Time) - (200000000 + BitVec.ofNat 48 (512 * 97 + 0 / 2 ^ 15))).toInt ∧
      ((16785605 : Nat) : Int) = 2 ^ 24 + (2 * refTracker.q + 256) / 512
        + max (-(l.config.trimMax : Int)) (min l.config.trimMax (336 * 2 ^ (15 - l.config.gs))) ∧
      ((l.boundaryWork (env 200050000)).lane.lastError, (l.boundaryWork (env 200050000)).lane.lastStep) =
        (some 336, some 16785605) := by
  unfold trimPremises
  decide +kernel
/-- The silent block: with fade source SILENCE, with the cursor gone, and without permission. -/
theorem witness_StoppingCompletes_silence :
    ({ laneStopping with halt := some { fromCursor := false, flush := false } } : Lane).halt =
        some { fromCursor := false, flush := false } ∧
      ({ laneStopping with cursor := none } : Lane).cursor = none ∧
      (laneStopping.config.policy = .strict ∧ ∀ st ∈ [TrackerState.unlocked, .acquiring, .freerun],
        ¬(st = .locked ∨ st = .holdover ∨ st = .ref)) ∧ laneStopping.switch = none := by
  decide
/-- The frame ends of a fade-out, each at the last sample of 64: END, no next frame, a gap of 257 ticks, and a join at 256. -/
theorem witness_StoppingCompletes_frameEnd :
    10 + (0 + 16777216) / 2 ^ 24 < (shortFrame 1 0).samples ∧ (shortFrame 1 0).samples ≤ 63 + (0 + 16777216) / 2 ^ 24 ∧
      ({ shortFrame 1 0 with endMark := true }.endMark = true ∧ (shortFrame 1 0).endMark = false) ∧
      256 < ((shortFrame 2 33025).time - ((shortFrame 1 0).time + BitVec.ofNat 48 (512 * 64))).toInt ∧
      ((shortFrame 2 33024).time - ((shortFrame 1 0).time + BitVec.ofNat 48 (512 * 64))).toInt = 256 ∧
      (64 - 64) + (if (256 : Int) < -256 then ((-2 * (256 : Int) + 512) / 1024).toNat else 0) < (shortFrame 2 33024).samples := by
  decide +kernel

theorem witness_SilentAndHeldWithoutPermission :
    let e := { env 0 with tracker := { refTracker with state := .acquiring } }
    lanePlaying.config.policy = .strict ∧ e.tracker.state ≠ .locked ∧ e.tracker.state ≠ .holdover ∧ e.tracker.state ≠ .ref ∧
      lanePlaying.config.direction = .play ∧ lanePlaying.state = .playing ∧ lanePlaying.cursor ≠ none ∧ lanePlaying.queue ≠ [] ∧
      lanePlaying.switch = none ∧ lanePlaying.actions = [] := by
  decide
theorem witness_SilentAndHeldWithoutPermission_loose :
    let l := { lanePlaying with config := { lanePlaying.config with policy := .loose } }
    let e := { env 0 with tracker := { refTracker with state := .unlocked } }
    l.config.policy = .loose ∧ e.tracker.state = .unlocked := ⟨rfl, rfl⟩

theorem witness_SilentAndHeldWithoutPermission_waiting :
    laneArmed.state = .armed ∧ laneBridging.state = .bridging ∧
      (laneHeld.state = .held ∧ laneHeld.cursor ≠ none ∧ laneHeld.queue ≠ []) ∧
      (laneStarved.state = .starved ∧ laneStarved.queue ≠ [] ∧ ({ laneStarved with queue := [] } : Lane).queue = []) := by decide
/-- The cursor's frame purged, one frame left or none; without permission. -/
theorem witness_SilentAndHeldWithoutPermission_purged :
    let l := { lanePlaying with cursor := none, queue := [queuedFrame 2 200131072 512] }
    let e := { env 0 with tracker := { refTracker with state := .unlocked } }
    (l.state = .playing ∧ l.cursor = none ∧ l.queue ≠ [] ∧ laneHeld.state = .held) ∧
      (l.boundaryWork e).lane.state = .bridging ∧ ({ l with queue := [] }.boundaryWork e).lane.state = .starved := by decide +kernel

/-- A boundary with a ramp that steps, one that is complete, and one that a gain action due there begins. -/
theorem witness_BoundaryStepsTheMixer :
    let c : Channel := { map := .stereo, current := 32768, start := 32768, target := 0, n := 5, b := 4 }
    let a : GainAction := { cue := .cue1, lane := .ln0, port := .spb, gain := 40000, ramp := 4, expiry := 8 }
    let s := { atBoundary 9 with mixer := { Mixer.reset.setChannel .ln0 .spa c with actions := [a] } }
    s.running = true ∧ s.boundaryDue = true ∧ (s.mixer.channel .ln0 .spa).b < (s.mixer.channel .ln0 .spa).n ∧
      (s.mixer.channel .ln1 .spa).n ≤ (s.mixer.channel .ln1 .spa).b ∧ a ∈ s.mixer.actions ∧
      a.expiry + 1 = blockIndex s.count ∧ ((after .blockBoundary s).mixer.channel .ln0 .spb).current = 10000 ∧
      s.mixer.duckClass.get .ln0 < 3 ∧ s.mixer.duckLevel.get .ln0 ≤ 32768 := by
  decide +kernel

/-- Sixteen captures. -/
def sixteen : List Capture := (List.range 16).map (fun n => entry (BitVec.ofNat 8 n) (BitVec.ofNat 48 (n + 1)))

theorem witness_StrobeEdgeCaptured :
    let s := strobed 1000002458 sixteen
    s.running = true ∧ s.strobe.queue.length ≤ 16 ∧ s.strobe.polarity = .rising ∧ sixteen.length = 16 := by decide +kernel

theorem witness_TimersExpire :
    let s := { live with count := 70368744177664, strobe := { StrobeCapture.reset with lastEdge := some 0, queue := [entry 0 0] } }
    s.running = true ∧ s.strobe.lastEdge = some 0 ∧ 2 ^ 46 ≤ (s.count - 0).toInt ∧ s.strobe.queue = entry 0 0 :: [] := by
  decide +kernel
theorem witness_TimersExpire_anchors :
    let s := { live with count := 70368844177664, tracker := refTracker }
    s.running = true ∧ s.tracker.state ≠ .unlocked ∧ 2 ^ 46 ≤ (s.count - s.tracker.l0).toInt := by decide +kernel
theorem witness_TimersExpire_holdover :
    let s := accepted .locked 29660800
    s.running = true ∧ s.tracker.state = .locked ∧ (s.tracker.settings.thold : Int) ≤ (s.count - s.tracker.lastAccept).toInt := by
  decide +kernel
theorem witness_TimersExpire_freerun :
    let s := accepted .holdover 1504220800
    s.running = true ∧ s.tracker.state = .holdover ∧
      (s.tracker.settings.thold + s.tracker.settings.tfree : Int) ≤ (s.count - s.tracker.lastAccept).toInt := by
  decide +kernel

theorem witness_TcapsReturnsTheOldest :
    live.Ready ∧ (16 : Byte).toNat ≤ 16 ∧ ¬ (17 : Byte).toNat ≤ 16 := ⟨live_ready, by decide, by decide⟩

theorem witness_TinjCapturesThePresentCount :
    (strobed 17 sixteen).Ready ∧ (strobed 17 sixteen).strobe.queue.length ≤ 16 := ⟨⟨rfl, by decide⟩, by decide +kernel⟩

theorem witness_TstrobeAndTset :
    live.Ready ∧ ((1 : Byte) = 1 ∧ StrobePolarity.falling = .falling) ∧ ((2 : Byte) ≠ 0 ∧ (2 : Byte) ≠ 1) :=
  ⟨live_ready, ⟨rfl, rfl⟩, by decide⟩

/-- An exact half rounds toward positive infinity whatever the sign of d (R19). -/
theorem witness_TimersExpire_house :
    let k := { refTracker with state := .locked, q := 524288 }
    (4096 : Int) = ((100004096 : Time) - k.l0).toInt ∧ 2 * (4096 * k.q) < 2 ^ 32 * (2 * 1 + 1) ∧
      2 ^ 32 * (2 * 1 - 1) ≤ 2 * (4096 * k.q) ∧ k.house? 100004096 = some 900004097 ∧
      (-4096 : Int) = ((99995904 : Time) - k.l0).toInt ∧ 2 * (-4096 * k.q) < 2 ^ 32 * (2 * 0 + 1) ∧
      2 ^ 32 * (2 * 0 - 1) ≤ 2 * (-4096 * k.q) ∧ k.house? 99995904 = some 899995904 := by decide +kernel

theorem witness_TnowReportsTheTracker :
    tracked.Ready ∧ (13000 : Int) = (tracked.count - tracked.tracker.l0).toInt ∧ tracked.tracker.state ≠ .unlocked ∧
      live.tracker.state = .unlocked := ⟨⟨rfl, by decide⟩, by decide +kernel, by decide, rfl⟩

/-- Each role to the other; and to itself, with role codes 0 and 1. -/
theorem witness_TroleChangesTheRole :
    live.Ready ∧ (live.tracker.role = .follower ∧ (0 : Byte) = 0) ∧
      (({ live with tracker := refTracker } : State).tracker.role = .reference ∧ (1 : Byte) = 1) ∧ 1 < (2 : Byte).toNat :=
  ⟨live_ready, ⟨rfl, rfl⟩, ⟨rfl, rfl⟩, by decide⟩

/-- The pair that the TSYNC statements name: its place in the queue and its distance from the anchors. -/
def pairAt (s : State) (seq : Byte) (e : Capture) (d : Int) : Prop :=
  s.tracker.role = .follower ∧ s.strobe.queue = [] ++ e :: [] ∧ (∀ x ∈ ([] : List Capture), x.seq ≠ seq) ∧ e.seq = seq ∧
    d = (e.time - s.tracker.l0).toInt ∧ 0 < d

/-- The part of the chapter's tracked pair in another tracker state. -/
def trackedIn (state : TrackerState) (acquired run : Nat) : State :=
  { tracked with tracker := { tracked.tracker with state := state, acquireCount := acquired, outlierRun := run } }

theorem witness_TsyncTracksAPair :
    tracked.Ready ∧ tracked.tracker.state = .locked ∧ pairAt tracked 4 (entry 4 1002457600) 2457600 ∧
      tracked.tracker.house? (entry 4 1002457600).time = some 5002457657 ∧
      (43 : Int) = ((5002457700 : Time) - 5002457657).toInt ∧ (43 : Int).natAbs ≤ tracked.tracker.settings.w ∧
      (4697 : Int) = (if (2457600 : Int) < 245760 then 0
        else (2 * (43 * 2 ^ 32) + 2457600 * 2 ^ tracked.tracker.settings.ki) / (2 * (2457600 * 2 ^ tracked.tracker.settings.ki))) := by
  unfold pairAt
  exact ⟨⟨rfl, by decide⟩, rfl, ⟨rfl, rfl, by decide, rfl, by decide +kernel, by decide⟩, by decide +kernel, by decide +kernel,
    by decide, by decide +kernel⟩
/-- An error beyond W, as the third and as the fourth outlier in a run, in HOLDOVER. -/
theorem witness_TsyncTracksAPair_outlier :
    let s := trackedIn .holdover 0 2
    s.Ready ∧ s.tracker.state = .holdover ∧ pairAt s 4 (entry 4 1002457600) 2457600 ∧
      s.tracker.house? (entry 4 1002457600).time = some 5002457657 ∧ (2459 : Int) = ((5002460116 : Time) - 5002457657).toInt ∧
      s.tracker.settings.w < (2459 : Int).natAbs ∧ s.tracker.outlierRun + 1 < s.tracker.settings.nout ∧
      (trackedIn .holdover 0 3).tracker.settings.nout ≤ (trackedIn .holdover 0 3).tracker.outlierRun + 1 := by
  unfold pairAt
  exact ⟨⟨rfl, by decide⟩, rfl, ⟨rfl, rfl, by decide, rfl, by decide +kernel, by decide⟩, by decide +kernel, by decide +kernel,
    by decide, by decide, by decide⟩

/-- A pair below Nacq, the one that reaches it, and one beyond Wacq. -/
theorem witness_TsyncAcquires :
    let s := trackedIn .acquiring 6 0
    s.Ready ∧ s.tracker.state = .acquiring ∧ 1 ≤ s.tracker.acquireCount ∧ pairAt s 4 (entry 4 1002457600) 2457600 ∧
      s.tracker.house? (entry 4 1002457600).time = some 5002457657 ∧ (43 : Int) = ((5002457700 : Time) - 5002457657).toInt ∧
      (43 : Int).natAbs ≤ s.tracker.settings.wacq ∧ s.tracker.acquireCount + 1 < s.tracker.settings.nacq ∧
      (trackedIn .acquiring 7 0).tracker.settings.nacq ≤ (trackedIn .acquiring 7 0).tracker.acquireCount + 1 ∧
      s.tracker.settings.wacq < ((5002482234 : Time) - 5002457657).toInt.natAbs := by
  unfold pairAt
  exact ⟨⟨rfl, by decide⟩, rfl, by decide, ⟨rfl, rfl, by decide, rfl, by decide +kernel, by decide⟩, by decide +kernel,
    by decide +kernel, by decide, by decide, by decide, by decide +kernel⟩

theorem witness_TsyncSteps :
    let s := strobed 2000 [entry 3 1000, entry 4 1500]
    s.Ready ∧ s.tracker.role = .follower ∧ s.tracker.state = .unlocked ∧
      s.strobe.queue = [entry 3 1000] ++ entry 4 1500 :: [] ∧ (∀ x ∈ [entry 3 1000], x.seq ≠ 4) ∧ (entry 4 1500).seq = 4 :=
  ⟨⟨rfl, by decide⟩, rfl, rfl, rfl, by decide, rfl⟩
theorem witness_TsyncSteps_freerun_acquiring_commit :
    ((trackedIn .freerun 0 0).Ready ∧ (trackedIn .freerun 0 0).tracker.state = .freerun) ∧
      ((trackedIn .acquiring 0 0).Ready ∧ (trackedIn .acquiring 0 0).tracker.acquireCount = 0) ∧
      tracked.Ready ∧ tracked.tracker.state ≠ .unlocked ∧ (9 : Byte) ≠ tracked.tracker.epoch ∧
      ({ tracked.tracker with candidate := some 9 } : Tracker).candidate = some 9 :=
  ⟨⟨⟨rfl, by decide⟩, rfl⟩, ⟨⟨rfl, by decide⟩, rfl⟩, ⟨rfl, by decide⟩, by decide, by decide, rfl⟩

theorem witness_TsyncHoldsACandidate :
    tracked.Ready ∧ tracked.tracker.role = .follower ∧ tracked.tracker.state ≠ .unlocked ∧
      tracked.strobe.queue = [] ++ entry 4 1002457600 :: [] ∧ (entry 4 1002457600).seq = 4 ∧ (9 : Byte) ≠ tracked.tracker.epoch ∧
      tracked.tracker.candidate ≠ some 9 := ⟨⟨rfl, by decide⟩, rfl, by decide, rfl, rfl, by decide, by decide⟩

theorem witness_TsyncRefused :
    live.Ready ∧ ({ live with tracker := refTracker } : State).tracker.role = .reference ∧
      live.tracker.role = .follower ∧ ∀ x ∈ live.strobe.queue, x.seq ≠ 9 := ⟨live_ready, rfl, rfl, by decide⟩
theorem witness_TsyncRefused_stale :
    let s := { tracked with strobe := { tracked.strobe with queue := [entry 4 1000000000] } }
    s.Ready ∧ s.tracker.role = .follower ∧ s.tracker.state = .locked ∧ s.strobe.queue = [] ++ entry 4 1000000000 :: [] ∧
      (entry 4 1000000000).seq = 4 ∧ ((entry 4 1000000000).time - s.tracker.l0).toInt ≤ 0 ∧
      1 ≤ (trackedIn .acquiring 1 0).tracker.acquireCount :=
  ⟨⟨rfl, by decide⟩, rfl, rfl, rfl, rfl, by decide +kernel, by decide⟩

theorem witness_LcfgEnablesAnOffLane :
    let r := config 1
    live.Ready ∧ r.lane.toNat = LaneId.ln0.num ∧ r.enable = 1 ∧ Direction.play.code = r.direction ∧
      SyncPolicy.strict.code = r.policy ∧ (r.channels = 1 ∨ r.channels = 2) ∧ 1 ≤ r.quota.toNat ∧
      r.firstPage.toNat ≤ r.lastPage.toNat ∧ (live.lanes.get .ln0).state = .off ∧
      (∀ j, j ≠ LaneId.ln0 → (live.lanes.get j).state ≠ .off →
        (r.lastPage.toNat < (live.lanes.get j).config.firstPage.toNat ∨ (live.lanes.get j).config.lastPage.toNat < r.firstPage.toNat) ∧
        (Direction.play = .capture → (live.lanes.get j).config.direction ≠ .capture)) ∧
      r.quota.toNat + ((LaneId.list.filter (fun j => j != .ln0 && (live.lanes.get j).enabled)).map
        (fun j => (live.lanes.get j).config.quota)).sum ≤ 128 :=
  ⟨live_ready, rfl, rfl, rfl, rfl, .inr rfl, by decide, by decide, rfl, by intro j _ h; cases j <;> exact absurd rfl h,
    by decide⟩

/-- A lane beside LN0, in LN1. -/
def beside (l : Lane) : State := { live with lanes := live.lanes.set .ln1 l }

/-- Lanes, the checks of LCFG: E_STATE in STOPPED and in an active state, E_OVERLAP, E_BOUND, E_QUOTA of the pool and of the records
held, and E_RANGE; and ADJUSTED where one is taken in OFF, in STOPPED on and off, and in PLAYING (its frame size clamped). -/
theorem test_lcfg_codes :
    [answer (after (.lcfg 1 { config 1 with direction := 1 }) (withLane lane2 live)),
      answer (after (.lcfg 1 (config 0)) (withLane lanePlaying live)),
      answer (after (.lcfg 1 (config 1)) (beside lane2)),
      answer (after (.lcfg 1 { config 1 with direction := 1 }) (beside captureLane)),
      answer (after (.lcfg 1 { config 1 with firstPage := 16, lastPage := 16, quota := 121 }) (beside lane2)),
      answer (after (.lcfg 1 { config 1 with quota := 1 }) (withLane lane2 live)),
      answer (after (.lcfg 1 { config 1 with channels := 3 }) live)] =
      [[0x13], [0x13], [0x3A], [0x31], [0x38], [0x38], [0x12]] ∧
    [(after (.lcfg 1 (config 0)) live).lanes.ln0.state, (after (.lcfg 1 (config 1)) (withLane lane2 live)).lanes.ln0.state,
      (after (.lcfg 1 (config 0)) (withLane lane2 live)).lanes.ln0.state,
      (after (.lcfg 1 (config 1)) (withLane lanePlaying live)).lanes.ln0.state] = [.off, .stopped, .off, .playing] ∧
    (after (.lcfg 1 (config 1)) (withLane lanePlaying live)).lanes.ln0.config.low = 4800 := by decide +kernel

/-- The configuration that `config` carries, clamped. -/
def clamped : LaneConfig :=
  { LaneConfig.reset with lastPage := 15, quota := 8, low := 4800, high := 8192, leadLimit := 49152000 }

theorem witness_LcfgChecksAndStores :
    let r := config 1
    live.Ready ∧ r.lane.toNat = LaneId.ln0.num ∧ r.enable = (if true then 1 else 0) ∧ (config 0).enable = (if false then 1 else 0) ∧
      Direction.play.code = r.direction ∧ SyncPolicy.strict.code = r.policy ∧ (r.channels = 1 ∨ r.channels = 2) ∧
      1 ≤ r.quota.toNat ∧ r.quota.toNat ≤ 128 ∧ r.firstPage.toNat ≤ r.lastPage.toNat ∧
      8192 = (r.lastPage.toNat - r.firstPage.toNat + 1) * 1024 / r.channels.toNat ∧ 4800 = min r.low.toNat 8192 ∧
      clamped =
        { direction := .play, firstPage := r.firstPage, lastPage := r.lastPage, quota := r.quota.toNat,
          channels := r.channels.toNat, policy := .strict, leadLimit := max 24576 (min 1474560000 r.leadLimit.toNat),
          low := 4800, high := max 4800 (min r.high.toNat 8192),
          roomOffset := max (-1048576) (min 1048575 r.roomOffset.toInt), gs := max 6 (min 14 r.gs.toNat),
          trimMax := min r.trimMax.toNat 13421, slipLimit := max 512 (min 1048575 r.slipLimit.toNat),
          frameSize := max 64 (min 1024 (r.frameSize.toNat / 64 * 64)),
          dataMark := max 1 (min r.quota.toNat r.dataMark.toNat), inputLatency := r.inputLatency.toNat } ∧
      5 < ({ r with lane := 6 } : LcfgReq).lane.toNat := ⟨live_ready, by decide +kernel⟩
/-- Permitted in OFF, in STOPPED and in PLAYING, and permitted in neither of the last two. -/
theorem witness_LcfgChecksAndStores_states :
    (live.lanes.get .ln0).state = .off ∧
      (lane2.state = .stopped ∧ Direction.play = lane2.config.direction ∧ (config 1).firstPage = lane2.config.firstPage ∧
        (config 1).lastPage = lane2.config.lastPage ∧ (config 1).channels.toNat = lane2.config.channels) ∧
      (lanePlaying.state ≠ .off ∧ lanePlaying.state ≠ .stopped ∧
        clamped = { lanePlaying.config with
          roomOffset := clamped.roomOffset, gs := clamped.gs, trimMax := clamped.trimMax, slipLimit := clamped.slipLimit,
          low := clamped.low, high := clamped.high, leadLimit := clamped.leadLimit, inputLatency := clamped.inputLatency }) ∧
      Direction.capture ≠ lane2.config.direction := by decide +kernel
/-- An overlap, a second CAPTURE lane, a pool that is used up, and a quota below the records held. -/
theorem witness_LcfgChecksAndStores_refusals :
    (((beside lane2).lanes.get .ln1).state ≠ .off ∧ (config 1).firstPage.toNat ≤ lane2.config.lastPage.toNat ∧
        lane2.config.firstPage.toNat ≤ (config 1).lastPage.toNat) ∧
      (captureLane.state ≠ .off ∧ captureLane.config.direction = .capture ∧
        (config 1).lastPage.toNat < captureLane.config.firstPage.toNat) ∧
      128 < 121 + ((LaneId.list.filter (fun j => j != LaneId.ln0 && ((beside lane2).lanes.get j).enabled)).map
        (fun j => ((beside lane2).lanes.get j).config.quota)).sum ∧
      (lane2.state ≠ .off ∧ 1 < lane2.held) := by decide +kernel

theorem witness_ReleaseMarksAndReclaims :
    let l := { lanePlaying with filling := some { record := queuedFrame 3 0 512, written := 1, first := 0 } }
    l.reclaimOffset < l.config.regionSize ∧ (∀ a, l.allocs.head? = some a → a.released = false) ∧
      l.queue = { queuedFrame 1 200000000 0 with status := .playing } :: [queuedFrame 2 200131072 512] ∧
      l.filling = some { record := queuedFrame 3 0 512, written := 1, first := 0 } :=
  ⟨by decide, (by intro a h; cases h; rfl), rfl, rfl⟩

theorem witness_LbindChecksAndBinds :
    let r : LbindReq := { lane := 0, streamP := 1, stream := 71, timeP := 0, time := 0 }
    let s := withLane lane2 live
    s.Ready ∧ r.lane.toNat = LaneId.ln0.num ∧ r.timeP = 0 ∧ (r.streamP = 1 ∧ some (71 : StreamId) = some r.stream) ∧
      (s.lanes.get .ln0).config.direction = .play ∧ (s.lanes.get .ln0).state = .stopped ∧
      (∀ st, some (71 : StreamId) = some st → ∀ j, j ≠ .ln0 → (s.lanes.get j).current ≠ some st ∧
        ∀ sw, (s.lanes.get j).switch = some sw → sw.stream ≠ st) := by
  refine ⟨⟨rfl, by decide⟩, rfl, rfl, ⟨rfl, rfl⟩, rfl, rfl, ?_⟩
  rintro st ⟨⟩ j hj
  cases j <;> first
    | exact absurd rfl hj
    | exact ⟨by decide, fun sw h => by cases h⟩

/-- The STOPPED lane with a pending switch to stream 71 at T. -/
def switching (t : Time) : Lane := { lane2 with switch := some { stream := 71, time := t } }

/-- The premises of each refusal: E_RANGE four times, E_STATE of an OFF and of a CAPTURE lane, E_BOUND of a stream current or pending
on another lane and of this lane's own with a switch time, and E_STATE of a PLAYING lane without one. -/
theorem witness_LbindChecksAndBinds_refusals :
    let r : LbindReq := { lane := 0, streamP := 1, stream := 71, timeP := 0, time := 0 }
    let s := beside lane2
    live.Ready ∧ s.Ready ∧ (withLane lanePlaying s).Ready ∧
      (5 < (6 : Byte).toNat ∧ 1 < (2 : Byte).toNat ∧ ({ r with streamP := 0, timeP := 1 }.timeP = 1)) ∧
      ((live.lanes.get .ln0).state = .off ∧ captureLane.config.direction = .capture) ∧
      ((s.lanes.get .ln1).current = some 70 ∧
        ((beside (switching 7)).lanes.get .ln1).switch = some { stream := 71, time := 7 } ∧
        lanePlaying.current = some 70) ∧
      (lanePlaying.state ≠ .off ∧ lanePlaying.state ≠ .stopped ∧ lanePlaying.state ≠ .drained) :=
  ⟨⟨rfl, by decide⟩, ⟨rfl, by decide⟩, ⟨rfl, by decide⟩, by decide, by decide, by decide, by decide⟩
/-- Those refusals in the same order. -/
theorem test_lbind_codes :
    let r : LbindReq := { lane := 0, streamP := 1, stream := 71, timeP := 0, time := 0 }
    let said := fun (r : LbindReq) s => answer (after (.lbind 1 r) s)
    [said { r with lane := 6 } live, said { r with streamP := 2 } live, said { r with timeP := 2 } live,
      said { r with streamP := 0, timeP := 1 } live, said r live, said r (withLane captureLane live),
      said { r with stream := 70 } (withLane lanePlaying (beside lane2)), said r (withLane lane2 (beside (switching 7))),
      said { r with stream := 70, timeP := 1 } (withLane lanePlaying live), said r (withLane lanePlaying live)] =
    [[0x12], [0x12], [0x12], [0x12], [0x13], [0x13], [0x31], [0x31], [0x31], [0x13]] := by decide +kernel

/-- A stream is bound on no lane but LN0. -/
theorem free_elsewhere (l : Lane) (st : StreamId) :
    ∀ j, j ≠ LaneId.ln0 → ((withLane l live).lanes.get j).current ≠ some st ∧
      ∀ sw, ((withLane l live).lanes.get j).switch = some sw → sw.stream ≠ st := by
  intro j hj
  cases j <;> first
    | exact absurd rfl hj
    | exact ⟨by simp [withLane, live, State.reset, LaneMap.set, LaneMap.get, LaneMap.all, Lane.reset],
        fun sw h => by cases h⟩

/-- The lane's late point in PLAYING is its cursor's content time, 200,049,664: not earlier than a switch time there, earlier than the
next tick. -/
theorem witness_LbindSetsASwitch :
    let r : LbindReq := { lane := 0, streamP := 1, stream := 71, timeP := 1, time := 200049664 }
    let s := { withLane lanePlaying live with tracker := refTracker }
    s.Ready ∧ r.lane.toNat = LaneId.ln0.num ∧ r.streamP = 1 ∧ r.timeP = 1 ∧ (s.lanes.get .ln0).config.direction = .play ∧
      (s.lanes.get .ln0).state ≠ .off ∧ (s.lanes.get .ln0).current ≠ some r.stream ∧
      s.latePoint? { lanePlaying with switch := some { stream := 71, time := 200049664 } } = some 200049664 ∧
      0 ≤ ((200049664 : Time) - r.time).toInt ∧ ((200049664 : Time) - 200049665).toInt < 0 :=
  ⟨⟨rfl, by decide⟩, rfl, rfl, rfl, rfl, by decide, by decide, by decide +kernel, by decide +kernel, by decide +kernel⟩
theorem witness_LbindSetsASwitch_elsewhere :
    ∀ j, j ≠ LaneId.ln0 → ((withLane lanePlaying live).lanes.get j).current ≠ some 71 ∧
      ∀ sw, ((withLane lanePlaying live).lanes.get j).switch = some sw → sw.stream ≠ 71 := free_elsewhere _ _

theorem witness_SwitchCommitsAndWindow :
    (switching 7).config.direction = .play ∧ (switching 7).state = .stopped ∧ (switching 7).actions = [] ∧
      (switching 7).switch = some { stream := 71, time := 7 } ∧ (env 7).target (switching 7) = some 7 ∧
      0 ≤ ((7 : Time) - 7).toInt ∧ (env 6).target (switching 7) = some 6 ∧ ((6 : Time) - 7).toInt < 0 := by decide +kernel
/-- A PLAYING lane whose switch is due at the boundary's target. -/
theorem witness_SwitchCommitsAndWindow_playing :
    let l := { lanePlaying with switch := some { stream := 71, time := 7 } }
    l.config.direction = .play ∧ l.state ≠ .off ∧ l.actions = [] ∧ (env 200049664).target l = some 200049664 ∧
      0 ≤ ((200049664 : Time) - 7).toInt ∧ (l.boundaryWork (env 200049664)).lane.current = some 71 ∧
      (l.boundaryWork (env 200049664)).lane.queue.length = 1 := by decide +kernel
theorem witness_SwitchCommitsAndWindow_lframe :
    let r : LframeReq := { frame [0x80, 0x00, 0x00, 0x01] with stream := 71, width := 16, channels := 2, pts := 6 }
    let s := withLane (switching 7) live
    s.Ready ∧ (r.width = 16 ∧ r.channels = 2 ∧ 1 ≤ r.samples.toNat ∧ r.samples.toNat ≤ 1024) ∧
      r.payload.length = r.samples.toNat * r.channels.toNat * 2 ∧ r.marks &&& 0xFC = 0 ∧ r.tagP = 0 ∧
      (s.lanes.get .ln0).isPlay = true ∧ (s.lanes.get .ln0).switch = some { stream := 71, time := 7 } ∧
      (∀ j, j ≠ LaneId.ln0 → (s.lanes.get j).isPlay = true → (s.lanes.get j).bound r.stream = false) ∧
      r.channels.toNat = (s.lanes.get .ln0).config.channels ∧ s.latePoint? (s.lanes.get .ln0) = none ∧ (r.pts - 7).toInt < 0 := by
  refine ⟨⟨rfl, by decide⟩, ⟨rfl, rfl, by decide, by decide⟩, by decide, by decide, rfl, by decide, rfl, ?_, rfl, rfl, by decide⟩
  intro j hj h
  cases j <;> first
    | exact absurd rfl hj
    | exact absurd h (by decide)
/-- The two other refusals: a switch that is due and a frame of the old stream, and one not due with a frame at T of the old stream. -/
theorem witness_SwitchCommitsAndWindow_other :
    (∃ p, ({ withLane (switching 7) live with tracker := refTracker } : State).latePoint? (switching 7) = some p ∧
      0 ≤ (p - 7).toInt) ∧ (switching 7).current = some 70 ∧ (71 : StreamId) ≠ 70 ∧ 0 ≤ ((7 : Time) - 7).toInt :=
  ⟨⟨_, rfl, by decide +kernel⟩, rfl, by decide, by decide⟩

/-- A one-channel PLAY lane with nothing queued. -/
def laneOne : Lane := { lane2 with config := { lane2.config with channels := 1 }, queue := [], allocs := [] }

/-- An LFRAME of one 16-bit sample for that lane. -/
def oneSample : LframeReq := { frame [0x80, 0x00] with stream := 70, width := 16, marks := 3, pts := 800000000 }

/-- The part in REF with a lane in LN0, its house time 799,000,000 and its next block's 41,216 ticks later. -/
def routed (l : Lane) : State := { withLane l live with count := 100000000, tracker := { refTracker with h0 := 799000000 } }

/-- Streams, the checks of LFRAME: E_LEN, E_RANGE for its fields and for its channels, E_NOLANE, E_SWITCH, E_EPOCH, E_LATE, E_EARLY,
E_DUP, E_ORDER, E_QUOTA, E_ROOM; and the largest negative sample taken. -/
theorem test_lframe_codes :
    let refusal := fun (r : LframeReq) (l : Lane) => answer (after (.lframe 1 r) (routed l))
    let queued := { queuedFrame 9 700000000 0 with channels := 1 }
    [refusal { oneSample with payload := [0] } laneOne,
      refusal { oneSample with marks := 4 } laneOne,
      refusal { oneSample with channels := 2, payload := [0, 0, 0, 0] } laneOne,
      refusal { oneSample with stream := 9 } laneOne,
      refusal { oneSample with stream := 71 } { laneOne with switch := some { stream := 71, time := 800000001 } },
      refusal { oneSample with epoch := 1 } laneOne,
      refusal { oneSample with pts := 799033280 - 512 } laneOne,
      refusal { oneSample with pts := 799000001 + 49152000 } laneOne,
      refusal { oneSample with seq := 9 } { laneOne with queue := [queued] },
      refusal oneSample { laneOne with queue := [{ queued with pts := some 800000000 }] },
      refusal oneSample { laneOne with queue := List.replicate 8 queued },
      refusal oneSample { laneOne with allocs := [{ start := 0, len := 16384, released := false }] }] =
      [[0x10], [0x12], [0x12], [0x30], [0x32], [0x33], [0x34], [0x35], [0x36], [0x37], [0x38], [0x39]] ∧
    (after (.lframe 1 oneSample) (routed laneOne)).store.read 1024 = 0xFF800000 := by decide +kernel

/-- The lengths and fields that pass, and those that do not. -/
theorem witness_LframeChecksAndAdmits :
    let s := routed laneOne
    s.Ready ∧ s.StoreLaw ∧
      ((oneSample.width = 16 ∧ oneSample.payload.length = oneSample.samples.toNat * oneSample.channels.toNat * 2) ∧
        (oneSample.channels = 1 ∧ 1 ≤ oneSample.samples.toNat ∧ oneSample.samples.toNat ≤ 1024 ∧ oneSample.marks &&& 0xFC = 0 ∧
          oneSample.tagP = 0)) ∧
      ([0].length ≠ oneSample.samples.toNat * oneSample.channels.toNat * 2 ∧ (4 : Byte) &&& 0xFC ≠ 0) ∧
      (s.lanes.get .ln0).isPlay = true ∧ (s.lanes.get .ln0).bound oneSample.stream = true ∧
      (s.lanes.get .ln0).bound 9 = false ∧ oneSample.channels.toNat = (s.lanes.get .ln0).config.channels ∧
      ∀ j, j ≠ LaneId.ln0 → (s.lanes.get j).isPlay = true → (s.lanes.get j).bound oneSample.stream = false := by
  refine ⟨⟨rfl, by decide⟩, ⟨rfl, by intro e h; cases h⟩, by decide, by decide, by decide, by decide, by decide, rfl, ?_⟩
  intro j hj h
  cases j <;> first
    | exact absurd rfl hj
    | exact absurd h (by decide)
/-- No switch: each check of the frame passes. -/
theorem witness_LframeChecksAndAdmits_passes :
    let s := routed laneOne
    laneOne.switch = none ∧ laneOne.current = some oneSample.stream ∧ oneSample.epoch = s.tracker.epoch ∧
      (∃ p, s.latePoint? laneOne = some p ∧ 0 < (oneSample.pts + BitVec.ofNat 48 512 - p).toInt) ∧
      (∃ h, s.tracker.house? s.count = some h ∧ (oneSample.pts - h).toInt ≤ laneOne.config.leadLimit) ∧ laneOne.queue = [] ∧
      laneOne.queue.length < laneOne.config.quota ∧ laneOne.fill + 1 ≤ laneOne.config.regionSize :=
  ⟨rfl, rfl, rfl, ⟨_, rfl, by decide +kernel⟩, ⟨_, rfl, by decide +kernel⟩, rfl, by decide, by decide⟩
/-- The checks in their order, each failing where those before it pass. -/
theorem witness_LframeChecksAndAdmits_fails :
    let s := routed laneOne
    let f := { queuedFrame 9 800000000 0 with channels := 1 }
    ((800000000 : Time) - 800000001).toInt < 0 ∧ ((1 : Byte) ≠ s.tracker.epoch ∧ s.tracker.candidate = none) ∧
      (∃ p, s.latePoint? laneOne = some p ∧ ((799032768 : Time) + BitVec.ofNat 48 512 - p).toInt ≤ 0) ∧
      (∃ h, s.tracker.house? s.count = some h ∧ (laneOne.config.leadLimit : Int) < ((848152001 : Time) - h).toInt) ∧
      (f.stream = oneSample.stream ∧ f.seq = 9) ∧ f.time = oneSample.pts ∧ laneOne.config.quota ≤ (List.replicate 8 f).length ∧
      laneOne.config.regionSize < ({ laneOne with allocs := [{ start := 0, len := 16384, released := false }] } : Lane).fill + 1 :=
  ⟨by decide, ⟨by decide, rfl⟩, ⟨_, rfl, by decide +kernel⟩, ⟨_, rfl, by decide +kernel⟩, ⟨rfl, rfl⟩, rfl, by decide,
    by decide⟩
/-- A frame of the pending stream after its own due commit. -/
theorem witness_LframeChecksAndAdmits_commits :
    let l := { laneOne with switch := some { stream := 71, time := 7 } }
    (∃ p, (routed l).latePoint? l = some p ∧ 0 ≤ (p - 7).toInt) ∧ l.bound 71 = true ∧
      (after (.lframe 1 { oneSample with stream := 71 }) (routed l)).lanes.ln0.current = some 71 ∧
      (after (.lframe 1 { oneSample with stream := 71 }) (routed l)).lanes.ln0.queue.length = 1 :=
  ⟨⟨_, rfl, by decide +kernel⟩, by decide, by decide +kernel, by decide +kernel⟩
/-- The same with a pending switch that is not due: a frame of the pending stream at T, and one of the current stream before it. -/
theorem witness_LframeChecksAndAdmits_switch :
    let s := withLane { laneOne with switch := some { stream := 71, time := 7 } } live
    (s.lanes.get .ln0).switch = some { stream := 71, time := 7 } ∧ s.latePoint? (s.lanes.get .ln0) = none ∧
      0 ≤ ((7 : Time) - 7).toInt ∧ ((6 : Time) - 7).toInt < 0 ∧ (s.lanes.get .ln0).current = some 70 :=
  ⟨rfl, rfl, by decide, by decide, rfl⟩
/-- The next boundary, taken and yet to be taken, and the late point of each row of R75. -/
theorem witness_LframeChecksAndAdmits_late_point :
    let s := routed laneOne
    let b := { s with count := 100007936, boundaryDue := true }
    BitVec.ofNat 48 (32768 * (s.count.toNat / 32768 + (if s.boundaryDue then 0 else 1))) = (100007936 : Time) ∧
      BitVec.ofNat 48 (32768 * (b.count.toNat / 32768 + (if b.boundaryDue then 0 else 1))) = (100007936 : Time) ∧
      s.tracker.house? ((100007936 : Time) + BitVec.ofNat 48 (33280 + s.ports.spa.latency)) = some 799041216 ∧
      [s.latePoint? laneOne, b.latePoint? laneOne, s.latePoint? lanePlaying, s.latePoint? laneHeld,
        s.latePoint? { laneHeld with cursor := none }, s.latePoint? laneBridging, s.latePoint? laneBehind,
        s.latePoint? { laneBridging with queue := [] }, live.latePoint? laneOne] =
      [some 799041216, some 799041216, some 200049664, some 200049664, some 799041216, some 200000000, some 200140000,
        some 799041216, none] := by decide +kernel

theorem witness_LgoStartsALane :
    live.Ready ∧ (0 : Byte).toNat = LaneId.ln0.num ∧
      (((withLane lane2 live).lanes.get .ln0).config.direction = .play ∧ ((withLane lane2 live).lanes.get .ln0).state = .stopped) ∧
      ((capturing.lanes.get .ln0).config.direction = .capture ∧ (capturing.lanes.get .ln0).state = .stopped ∧
        (capturing.lanes.get .ln0).config.frameSize * (capturing.lanes.get .ln0).config.channels ≤
          (capturing.lanes.get .ln0).config.regionSize) ∧
      ((live.lanes.get .ln0).state ≠ .stopped ∧
        ((live.lanes.get .ln0).config.direction = .play → (live.lanes.get .ln0).state ≠ .drained)) :=
  ⟨live_ready, rfl, ⟨rfl, rfl⟩, ⟨rfl, rfl, by decide⟩, by decide, fun _ => by decide⟩
/-- A region of 1,024 words, a frame of 513 pairs. -/
theorem witness_LgoStartsALane_too_small :
    let l := { captureLane with config := { captureLane.config with frameSize := 513 } }
    l.config.direction = .capture ∧ l.state = .stopped ∧ l.config.regionSize < l.config.frameSize * l.config.channels ∧
      5 < (6 : Byte).toNat ∧ answer (after (.lgo 1 0) (withLane l live)) = [0x12] := by decide +kernel

/-- E_RANGE: TROLE, LGO, LHALT twice, LFETCH, and MGAIN for its lane, port and map. -/
theorem test_range_codes :
    let gain : MgainReq := { lane := 0, port := 0, map := 0, gain := 0, ramp := 1 }
    ([.trole 1 { role := 2, epoch := 0 }, .lgo 1 6, .lhalt 1 { lane := 6, flush := 0 }, .lhalt 1 { lane := 0, flush := 2 },
      .lfetch 1 6, .mgain 1 { gain with lane := 6 }, .mgain 1 { gain with port := 2 }, .mgain 1 { gain with map := 5 }].all
        (fun c => answer (after c live) == [0x12])) = true := by decide +kernel

theorem witness_LhaltStopsALane :
    let r : LhaltReq := { lane := 0, flush := 1 }
    let s := withLane lanePlaying live
    r.lane.toNat = LaneId.ln0.num ∧ (r.flush = 1 ∧ true = true) ∧ s.Ready ∧ (s.lanes.get .ln0).config.direction = .play ∧
      (s.lanes.get .ln0).state ≠ .off ∧ (s.lanes.get .ln0).state ≠ .stopped ∧ (s.lanes.get .ln0).state ≠ .stopping ∧
      (live.lanes.get .ln0).state = .off ∧ (5 < (6 : Byte).toNat ∧ 1 < (2 : Byte).toNat) :=
  ⟨rfl, ⟨rfl, rfl⟩, ⟨rfl, by decide⟩, rfl, by decide, by decide, by decide, rfl, by decide⟩
theorem witness_LhaltStopsALane_stopping_and_stopped :
    (laneStopping.config.direction = .play ∧ laneStopping.state = .stopping ∧
        laneStopping.halt = some { fromCursor := true, flush := true }) ∧
      (lane2.state = .stopped ∧ lane2.config.direction = .play) ∧
      ((capturing.lanes.get .ln0).state = .stopped ∧ (capturing.lanes.get .ln0).config.direction = .capture ∧
        ∀ j, (capturing.lanes.get j).isRunning = false) :=
  ⟨⟨rfl, rfl, rfl⟩, ⟨rfl, rfl⟩, rfl, rfl, by intro j; cases j <;> rfl⟩
theorem witness_LhaltStopsALane_capture :
    delivering.Ready ∧ (delivering.lanes.get .ln0).config.direction = .capture ∧ (delivering.lanes.get .ln0).state = .running ∧
      ∀ j, j ≠ .ln0 → (delivering.lanes.get j).isRunning = false :=
  ⟨⟨rfl, by decide⟩, rfl, rfl, by intro j hj; cases j <;> first | exact absurd rfl hj | rfl⟩

/-- A PLAY lane and a CAPTURE lane, and a lane number that names none. -/
theorem witness_LstatReportsTheLane :
    (withLane lanePlaying live).Ready ∧ (0 : Byte).toNat = LaneId.ln0.num ∧ lanePlaying.config.direction = .play ∧
      delivering.Ready ∧ (delivering.lanes.get .ln0).config.direction = .capture ∧ 5 < (6 : Byte).toNat :=
  ⟨⟨rfl, by decide⟩, rfl, rfl, ⟨rfl, by decide⟩, rfl, by decide⟩
/-- The playback lane's cursor at bytes 63 to 69, and the capture lane's run number at 98 and 99. -/
theorem test_lstat_fields :
    ((answer (after (.lstat 1 0) (withLane lanePlaying live))).drop 63).take 7 = [1, 0, 70, 0, 1, 0, 97] ∧
      ((answer (after (.lstat 1 0) delivering)).drop 98).take 2 = [0, 1] ∧ answer (after (.lstat 1 6) live) = [0x12] := by
  decide +kernel

theorem witness_LfetchReturnsTheOldestFrame :
    let s := withLane { captureLane with queue := [queuedFrame 1 5 0] } live
    s.Ready ∧ (0 : Byte).toNat = LaneId.ln0.num ∧ (s.lanes.get .ln0).config.direction = .capture ∧ (s.lanes.get .ln0).state ≠ .off ∧
      (s.lanes.get .ln0).queue = queuedFrame 1 5 0 :: [] ∧ 5 < (6 : Byte).toNat :=
  ⟨⟨rfl, by decide⟩, rfl, rfl, by decide, rfl, by decide⟩
theorem witness_LfetchReturnsTheOldestFrame_none :
    capturing.Ready ∧ (capturing.lanes.get .ln0).config.direction = .capture ∧ (capturing.lanes.get .ln0).state ≠ .off ∧
      (capturing.lanes.get .ln0).queue = [] ∧ (capturing.lanes.get .ln1).config.direction = .play :=
  ⟨⟨rfl, by decide⟩, rfl, by decide, rfl, rfl⟩

theorem witness_MgainAndMduck :
    let r : MgainReq := { lane := 5, port := 1, map := 4, gain := 65535, ramp := 0 }
    live.Ready ∧ r.lane.toNat = LaneId.ln5.num ∧ outPortCode .spb = r.port ∧ ChannelMap.mono.code = r.map ∧ 1 = max 1 r.ramp.toNat :=
  ⟨live_ready, rfl, rfl, rfl, rfl⟩
theorem witness_MgainAndMduck_classes :
    ((duck 3).class0.toNat ≤ 3 ∧ (duck 3).class1.toNat ≤ 3 ∧ (duck 3).class2.toNat ≤ 3 ∧ (duck 3).class3.toNat ≤ 3 ∧
      (duck 3).class4.toNat ≤ 3 ∧ (duck 3).class5.toNat ≤ 3) ∧ 3 < (duck 4).class0.toNat ∧
      (5 < (6 : Byte).toNat ∧ 1 < (2 : Byte).toNat ∧ 4 < (5 : Byte).toNat) := by decide

/-- A PCFG that enables a port at width 16. -/
def portConfig (port : Byte) : PcfgReq :=
  { port := port, enable := 1, width := 16, polarity := 0, alignment := 1, latency := 40000, master := 40000, clockMode := 1 }

/-- E_RANGE for a port, enable, width, polarity and alignment code, and for SPC's clock mode code; a known one of SPB is taken. -/
theorem test_pcfg_codes :
    ([{ portConfig 3 with enable := 1 }, { portConfig 0 with enable := 2 }, { portConfig 1 with width := 20 },
      { portConfig 0 with polarity := 2 }, { portConfig 2 with alignment := 2 }, { portConfig 2 with clockMode := 2 }].all
        (fun r => answer (after (.pcfg 1 r) live) == [0x12])) = true ∧
      (after (.pcfg 1 (portConfig 1)) live).ports.spb.latency = 40000 := by decide +kernel

theorem witness_PcfgStoresTheConfiguration :
    let f : PortFormat := { enable := true, width := .w16, polarity := .leftLow, alignment := .justified }
    live.Ready ∧ (portConfig 1).enable = (if f.enable then 1 else 0) ∧ f.width.code = (portConfig 1).width ∧
      f.polarity.code = (portConfig 1).polarity ∧ f.alignment.code = (portConfig 1).alignment ∧
      outPortCode .spb = (portConfig 1).port ∧ (portConfig 2).port = 2 ∧ ClockMode.slave.code = (portConfig 2).clockMode ∧
      (portConfig 1).clockMode.toNat ≤ 1 ∧
      (2 < (3 : Byte).toNat ∧ 1 < (2 : Byte).toNat ∧ (20 : Byte) ≠ 16 ∧ (20 : Byte) ≠ 24) ∧
      (∀ i, (live.lanes.get i).isRunning = false) ∧ (∃ i, (delivering.lanes.get i).isRunning = true) ∧ f ≠ delivering.spc.format :=
  ⟨live_ready, rfl, rfl, rfl, rfl, rfl, rfl, rfl, by decide, by decide, by intro i; cases i <;> rfl, ⟨.ln0, rfl⟩, by decide⟩

theorem witness_SamplePeriodAndHangTail :
    let s := { emitting 32833536 with ports := { live.ports with spb := { (emitting 0).ports.spb with
      emission := [{ base := 32735232, pairs := [] }, { base := 32768000, pairs := List.replicate 64 (1, 2) }] } } }
    s.running = true ∧ s.count.toNat % 512 = 0 ∧ (s.ports.get .spb).inForce.enable = true ∧
      (s.ports.get .spb).emission = [{ base := 32735232, pairs := [] }] ++ { base := 32768000, pairs := List.replicate 64 (1, 2) } :: [] ∧
      (∀ d ∈ [({ base := 32735232, pairs := [] } : EmissionBlock)], 32768 ≤ (s.count - (d.base + 33280)).toInt) ∧
      512 * ((63 : Nat) : Int) ≤ (s.count - ((32768000 : Time) + 33280)).toInt ∧
      (s.count - ((32768000 : Time) + 33280)).toInt < 512 * (((63 : Nat) : Int) + 1) ∧ 63 < 64 ∧
      (List.replicate 64 ((1, 2) : Int × Int))[63]? = some (1, 2) := by
  refine ⟨rfl, by decide +kernel, rfl, rfl, ?_, by decide +kernel, by decide +kernel, by decide, by decide +kernel⟩
  intro d h
  simp only [List.mem_singleton] at h
  subst h
  decide +kernel
theorem witness_SamplePeriodAndHangTail_used_up :
    let s := emitting 32834048
    s.running = true ∧ s.count.toNat % 512 = 0 ∧ (s.ports.get .spb).inForce.enable = true ∧
      ∀ d ∈ (s.ports.get .spb).emission, 32768 ≤ (s.count - (d.base + 33280)).toInt := by
  refine ⟨rfl, by decide +kernel, rfl, ?_⟩
  intro d h
  simp only [emitting, PortPair.get, List.mem_singleton] at h
  subst h
  decide +kernel
/-- The period before the listed block's first: the block waits. -/
theorem witness_SamplePeriodAndHangTail_waiting :
    let s := emitting 32800768
    s.running = true ∧ s.count.toNat % 512 = 0 ∧ (s.ports.get .spb).inForce.enable = true ∧
      (s.ports.get .spb).emission = [] ++ (s.ports.get .spb).emission ∧ (s.ports.get .spb).emission ≠ [] ∧
      ∀ e ∈ (s.ports.get .spb).emission, (s.count - (e.base + 33280)).toInt < 0 := by
  refine ⟨rfl, by decide +kernel, rfl, rfl, by decide, ?_⟩
  intro d h
  simp only [emitting, PortPair.get, List.mem_singleton] at h
  subst h
  decide +kernel
theorem witness_SamplePeriodAndHangTail_tail :
    let s := { live with ports := { live.ports with spa := { OutPortState.reset with tailEnd := some live.count } } }
    s.running = true ∧ (s.ports.get .spa).tailEnd = some live.count ∧ 0 ≤ (s.count - live.count).toInt ∧ (s.ports.get .spa).hang = 0 :=
  ⟨rfl, rfl, by decide +kernel, rfl⟩

theorem witness_SpcAssemblesSamples :
    delivering.running = true ∧ delivering.spc.inForce.enable = true ∧ delivering.spc.modeInForce = .master ∧
      delivering.spc.inForce.polarity = .leftLow ∧ delivering.spc.assembly ≠ none ∧ delivering.spc.selectTaken = false ∧
      delivering.spc.clockTaken = false ∧ ({ delivering with count := 50000900 } : State).count.toNat % 8 = 4 ∧
      delivering.count.toNat % 8 ≠ 4 ∧ ({ delivering with count := 50000640 } : State).count.toNat % 512 = 256 ∧
      ({ capturing with count := 50000896 } : State).count.toNat % 512 = 0 ∧ capturing.spc.assembly = none ∧
      ∀ i, (capturing.lanes.get i).isRunning = false :=
  ⟨rfl, rfl, rfl, rfl, by decide, rfl, rfl, by decide +kernel, by decide +kernel, by decide +kernel, by decide +kernel, rfl,
    by intro i; cases i <;> rfl⟩
theorem witness_SpcAssemblesSamples_slave :
    slaveHigh.running = true ∧ slaveHigh.spc.inForce.enable = true ∧ slaveHigh.spc.modeInForce = .slave ∧
      (∀ a, slaveHigh.spc.assembly = some a → a.slot = .right) ∧ slaveHigh.spc.inForce.polarity = .leftHigh ∧
      slaveHigh.spc.selectTaken = false ∧ slaveHigh.spc.selectLevel ≠ some true :=
  ⟨rfl, rfl, rfl, (by intro a h; cases h; rfl), rfl, rfl, by decide⟩

/-- A transition that makes a second right slot of a sample, which only a change of polarity or clock mode does (log 33): the slot open
till then is complete, its bits not received 0 (R151), and a bit of the second slot is none of the sample's. -/
def secondRight : State :=
  { delivering with
    count := 50000640
    spc := { delivering.spc with assembly := some { opened := 50000384, format := capturing.spc.inForce, slot := .right,
                                                    clocked := true, leftBits := [], rightBits := [true] } } }

theorem test_spc_second_right_slot :
    let s := after .spcWordSelectEdge secondRight
    let t := after (.spcBitTaken true) { s with count := 50000644 }
    s.spc.assembly.map Assembly.rightBits = some (true :: List.replicate 23 false) ∧
      (after (.spcBitTaken true) { t with count := 50000652, spc := { t.spc with clockTaken := false } }).spc.assembly.map
        Assembly.rightBits = some (true :: List.replicate 23 false) := by decide +kernel

theorem witness_SpcAssemblesSamples_second_right :
    secondRight.running = true ∧ secondRight.spc.inForce.enable = true ∧ secondRight.spc.modeInForce = .master ∧
      secondRight.spc.selectTaken = false ∧ secondRight.count.toNat % 512 = 256 ∧ secondRight.spc.assembly ≠ none := by
  decide +kernel

/-- The same opening edge with a frame being filled. -/
def filling : State :=
  { delivering with lanes := delivering.lanes.set .ln0 { delivering.lanes.ln0 with
      filling := some { record := { queuedFrame 0 0 0 with status := .filling }, written := 254, first := 0 } } }
/-- SPB's lines, 16 bits JUSTIFIED and DELAYED: the pair (1, −2) in its last bit clocks and the one behind, and the clocks' edges. -/
theorem witness_SamplePeriodAndHangTail_lines :
    let p := { (emitting 0).ports.spb with staging := (1, -2) }
    let d := { p with inForce := { p.inForce with alignment := .delayed, polarity := .leftHigh } }
    ((p.inForce.alignment = .justified ∧ (0 : Nat) = 0) ∧ (d.inForce.alignment = .delayed ∧ (1 : Nat) = 1)) ∧
      (p.inForce.width = .w16 ∧ (16 : Nat) = 16) ∧ (124 : Time).toNat % 256 / 8 = 15 ∧
      [(p.linesAt 115).data, (p.linesAt 124).data, (p.linesAt 128).data, (d.linesAt 124).data, (d.linesAt 128).data] =
        [false, true, false, false, true] ∧
      [(p.linesAt 371).data, (p.linesAt 380).data, (d.linesAt 256).data, (d.linesAt 383).data] = [true, false, false, true] ∧
      p.linesAt 256 = { bitClock := false, wordSelect := true, data := true } ∧ (p.linesAt 260).bitClock = true ∧
      (d.linesAt 255).wordSelect = true ∧ (d.linesAt 256).wordSelect = false ∧
      OutPortState.reset.linesAt 260 = { bitClock := false, wordSelect := false, data := false } := by decide +kernel
theorem witness_SamplePeriodAndHangTail_drive :
    capturing.spc.modeInForce = .master ∧ capturing.spc.inForce.enable = true ∧ capturing.spc.drivenAt 260 = some (true, true) ∧
      InPortState.reset.drivenAt 260 = some (false, false) ∧ { capturing.spc with modeInForce := .slave }.drivenAt 260 = none := by
  decide +kernel

theorem witness_CapturedSampleIsWritten :
    ∃ a f, filling.StoreLaw ∧ filling.running = true ∧ filling.spc.inForce.enable = true ∧ filling.count.toNat % 512 = 0 ∧
      filling.spc.selectTaken = false ∧ filling.spc.modeInForce = .master ∧
      filling.spc.assembly = some a ∧ a.slot = .right ∧ (filling.lanes.get .ln0).isRunning = true ∧
      (∀ j, j ≠ LaneId.ln0 → (filling.lanes.get j).isRunning = false) ∧ (filling.lanes.get .ln0).entryTime = some 50000100 ∧
      0 ≤ (a.opened - 50000100).toInt ∧ (filling.lanes.get .ln0).filling = some f ∧ f.written + 1 < f.record.samples ∧
      (filling.lanes.get .ln0).config.channels = f.record.channels ∧ f.record.channels = 2 :=
  ⟨_, _, ⟨rfl, by intro e h; cases h⟩, rfl, rfl, by decide +kernel, rfl, rfl, rfl, rfl, rfl,
    by intro j hj; cases j <;> first | exact absurd rfl hj | rfl, rfl, by decide +kernel, rfl, by decide, rfl, rfl⟩
theorem witness_CapturedSampleIsWritten_lone_left :
    cutLeft.StoreLaw ∧ cutLeft.running = true ∧ cutLeft.spc.inForce.enable = true ∧ cutLeft.spc.selectTaken = false ∧
      cutLeft.spc.modeInForce = .master ∧ cutLeft.count.toNat % 512 = 0 ∧ cutLeft.spc.assembly.map Assembly.slot = some .left ∧
      (cutLeft.lanes.get .ln0).isRunning = true ∧ (cutLeft.lanes.get .ln0).entryTime = some 294000 :=
  ⟨⟨by decide +kernel, by intro e h; revert h; revert e; decide +kernel⟩, by decide +kernel, by decide +kernel, by decide +kernel,
    by decide +kernel, by decide +kernel, by decide +kernel, by decide +kernel, by decide +kernel⟩
/-- The largest negative value of each width, and bits not received. -/
theorem witness_CapturedSampleIsWritten_value :
    slotValue .w16 [true] = -8388608 ∧ slotValue .w24 [true] = -8388608 ∧ slotValue .w16 [false, true] = 4194304 ∧
      slotValue .w24 (List.replicate 24 true) = -1 := by decide +kernel
theorem witness_CapturedSampleIsWritten_early : (((50000000 : Time) - 50000100).toInt < 0) := by decide +kernel

/-- A frame begins with one overrun, in a lane whose region is full of closed frames, and with none; and a frame fills. -/
def crowded : Lane :=
  { delivering.lanes.ln0 with
    allocs := [{ start := 0, len := 512, released := false }, { start := 512, len := 512, released := false }]
    queue := [queuedFrame 1 5 0, queuedFrame 2 6 512] }

theorem witness_CaptureFrameBeginsAndCloses :
    delivering.StoreLaw ∧ delivering.running = true ∧ delivering.spc.inForce.enable = true ∧ delivering.spc.selectTaken = false ∧
      delivering.count.toNat % 512 = 0 ∧ delivering.spc.modeInForce = .master ∧
      delivering.spc.assembly.map Assembly.slot = some .right ∧ delivering.lanes.ln0.isRunning = true ∧
      delivering.lanes.ln0.entryTime = some 50000100 ∧ 0 ≤ ((50000384 : Time) - 50000100).toInt ∧
      delivering.lanes.ln0.config.channels = 2 ∧ delivering.lanes.ln0.filling = none ∧ 1 < delivering.lanes.ln0.config.frameSize ∧
      delivering.lanes.ln0.captureCounters.overruns ≤ 65535 ∧ 512 ≤ delivering.lanes.ln0.free :=
  ⟨⟨rfl, by intro e h; cases h⟩, rfl, rfl, rfl, by decide +kernel, rfl, rfl, rfl, rfl, by decide +kernel, rfl, rfl, by decide,
    by decide, by decide⟩
theorem witness_CaptureFrameBeginsAndCloses_overrun :
    crowded.filling = none ∧ 1 ≤ crowded.queue.length ∧ crowded.free < 512 ∧ 512 ≤ (Lane.releaseHead^[1] crowded).free ∧
      crowded.queue.length - 1 < crowded.config.quota := by decide +kernel
theorem witness_CaptureFrameBeginsAndCloses_full :
    let f : Filling := { record := { queuedFrame 0 0 0 with status := .filling }, written := 255, first := 0 }
    f.written + 1 = f.record.samples ∧ delivering.lanes.ln0.config.channels = f.record.channels := by decide +kernel

theorem witness_InputClockIsLost :
    let s := { filling with spc := { filling.spc with watch := .watching 49935360 } }
    s.running = true ∧ s.spc.watch = .watching 49935360 ∧ 65536 ≤ (s.count - 49935360).toInt ∧
      (s.lanes.get .ln0).isRunning = true ∧ (s.lanes.get .ln1).isRunning = false :=
  ⟨rfl, rfl, by decide +kernel, rfl, rfl⟩

/-- A CSET of CUE2 with a GAIN action and an interval below the least. -/
def cueSet : CsetReq :=
  { cue := 2, mode := 1, target := 900000000, interval := 32767, reload := 2, gate := 0xFF, action := 3, lane := 5, flush := 0,
    port := 1, gain := 40000, ramp := 1, report := 1, line := 1 }

theorem witness_CsetAndCrun :
    live.Ready ∧ cueSet.cue.toNat = CueId.cue2.num ∧ CueMode.every.code = cueSet.mode ∧
      (cueSet.gate = 0xFF ∧ (none : Option LaneId) = none) ∧ cueSet.flush = (if false then 1 else 0) ∧ cueSet.port.toNat ≤ 2 ∧
      (cueSet.lane.toNat = LaneId.ln5.num ∧ cueSet.action = 3 ∧ outPortCode .spb = cueSet.port ∧
        CueAction.gain .ln5 .spb 40000 1 = .gain .ln5 .spb cueSet.gain.toNat cueSet.ramp.toNat) ∧
      ReportMode.afterAction.code = cueSet.report ∧ LineMode.toggle.code = cueSet.line ∧ (live.cues.get .cue2).state ≠ .running :=
  ⟨live_ready, rfl, rfl, ⟨rfl, rfl⟩, rfl, by decide, ⟨rfl, rfl, rfl, rfl⟩, rfl, rfl, by decide⟩
theorem witness_CsetAndCrun_refused :
    let s := { live with cues := { live.cues with cue2 := blocksCue } }
    s.Ready ∧ (s.cues.get .cue2).state = .running ∧ (s.cues.get .cue2).mode ≠ .every := ⟨⟨rfl, by decide⟩, rfl, by decide⟩

/-- CSET's and CRUN's E_RANGE, one for each check. -/
theorem test_cset_crun_codes :
    ([{ cueSet with cue := 4 }, { cueSet with mode := 3 }, { cueSet with gate := 6 }, { cueSet with gate := 0xFE },
      { cueSet with action := 4 }, { cueSet with action := 0, flush := 2 }, { cueSet with action := 0, port := 3 },
      { cueSet with action := 1, lane := 6 }, { cueSet with port := 2 }, { cueSet with report := 2 }, { cueSet with line := 2 }].all
        (fun r => answer (after (.cset 1 r) live) == [0x12])) = true ∧
      ([{ cue := 4, choices := 0 }, { cue := 0, choices := 6 }, { cue := 0, choices := 8 }].all
        (fun r => answer (after (.crun 1 r) live) == [0x12])) = true ∧
      (answer (after (.cset 1 { cueSet with action := 0, lane := 6, port := 2 }) live)).length = 50 := by decide +kernel

theorem witness_CsetAndCrun_run :
    let s := { live with cues := { live.cues with cue2 := { Cue.reset with state := .expired } } }
    s.Ready ∧ (2 : Byte).toNat = CueId.cue2.num ∧ (5 : Byte).toNat < 6 ∧ (s.cues.get .cue2).mode ≠ .blocks ∧
      (s.cues.get .cue2).state = .expired ∧ (4 : Byte).getLsbD 0 = false ∧ 6 ≤ (6 : Byte).toNat :=
  ⟨⟨rfl, by decide⟩, rfl, by decide, by decide, rfl, by decide, by decide⟩

theorem witness_CuesExpireAndReport :
    let s := { atBoundary 9 with cues := { live.cues with cue2 := { blocksCue with action := .halt .ln3 false } } }
    s.running = true ∧ s.boundaryDue = true ∧ (9 : BlockIndex) = blockIndex s.count ∧
      (∀ i, (s.lanes.get i).actions = []) ∧ s.mixer.actions = [] :=
  ⟨rfl, rfl, by decide +kernel, by intro i; cases i <;> rfl, rfl⟩
/-- An action record of CUE2 that is due at the boundary of `env`. -/
def due (action : LaneCueAction) : LaneAction := { cue := .cue2, action := action, expiry := 4 }

/-- A lane with that record, as each request finds it: GO taken and refused, HALT in OFF, in PLAYING, STOPPING, STOPPED and RUNNING. -/
theorem witness_CuesExpireAndReport_action :
    (∀ a, (due a).expiry + 1 = (env 0).block ∧ ({ lane2 with actions := [due a] } : Lane).actions = [due a]) ∧
      (lane2.config.direction = .play ∧ lane2.state = .stopped) ∧
      (lanePlaying.config.direction = .play ∧ lanePlaying.state ≠ .stopped ∧ lanePlaying.state ≠ .drained ∧
        lanePlaying.state ≠ .off ∧ lanePlaying.state ≠ .stopping) ∧
      (captureLane.config.direction = .capture ∧ captureLane.state = .stopped ∧
        captureLane.config.frameSize * captureLane.config.channels ≤ captureLane.config.regionSize) ∧
      (delivering.lanes.ln0.config.direction = .capture ∧ delivering.lanes.ln0.state = .running) ∧
      Lane.reset.state = .off ∧ laneStopping.state = .stopping ∧
      laneStopping.halt = some { fromCursor := true, flush := true } := by
  refine ⟨fun a => ⟨rfl, rfl⟩, by decide, by decide, by decide, by decide, rfl, rfl, rfl⟩
/-- Playout, R104: GO of a STOPPED lane is applied before the state's work, so its first frame starts at the same boundary; HALT of a
PLAYING lane completes there; GO of a PLAYING lane fails, and its cue is told. -/
theorem test_due_actions :
    ({ lane2 with actions := [due .go] }.boundaryWork (env 199990000)).lane.state = .playing ∧
      ({ lanePlaying with actions := [due (.halt true)] }.boundaryWork (env 200049664)).lane.state = .stopped ∧
      ({ lanePlaying with actions := [due (.halt true)] }.boundaryWork (env 200049664)).lane.queue = [] ∧
      ({ lanePlaying with actions := [due .go] }.boundaryWork (env 200049664)).outcomes = [(.cue2, false)] := by
  decide +kernel
/-- Outcomes that reach CUE2 at boundary 9: a failure from LN0, and a success whose report is due. -/
theorem witness_CuesExpireAndReport_outcomes :
    let a : LaneAction := { cue := .cue2, action := .go, expiry := 8 }
    let q : Cue := { Cue.reset with state := .expired, outcome := .awaited, report := .afterAction, reportDue := some 9 }
    let s := fun l : Lane => { withLane { l with actions := [a] } (atBoundary 9) with cues := { live.cues with cue2 := q } }
    a.expiry + 1 = blockIndex (s lanePlaying).count ∧
      ((after .blockBoundary (s lanePlaying)).cues.cue2.outcome = .failed ∧
        (after .blockBoundary (s lanePlaying)).flag (.cue (.fail .cue2)) = true) ∧
      ((after .blockBoundary (s lane2)).cues.cue2.outcome = .succeeded ∧
        (after .blockBoundary (s lane2)).flag (.cue (.fired .cue2)) = true) := by decide +kernel
theorem witness_CuesExpireAndReport_every :
    let q := { Cue.reset with mode := .every, target := 949152000, interval := 24576000 }
    q.mode = .every ∧ 32768 ≤ q.interval ∧ q.interval ≤ 2 ^ 40 ∧ 0 ≤ ((1000015872 : Time) - q.target).toInt :=
  ⟨rfl, by decide, by decide, by decide +kernel⟩

theorem witness_LinesAreSetAndRead :
    let r : GsetReq := { line := 5, function := 3, cue := 2, level := 1 }
    live.Ready ∧ r.line.toNat = LineId.gl5.num ∧ (LineFunction.cueInverted .cue2).code = r.function ∧
      (∀ c, LineFunction.cueInverted .cue2 = .cue c ∨ LineFunction.cueInverted .cue2 = .cueInverted c → r.cue.toNat = c.num) ∧
      r.level = (if true then 1 else 0) := by
  refine ⟨live_ready, rfl, rfl, ?_, rfl⟩
  rintro c (h | h) <;> cases h
  rfl
/-- The level of each function: the hang count or a tail end makes a port active. -/
theorem witness_LinesAreSetAndRead_levels :
    let s := { live with
      tracker := refTracker
      ports := { spa := { OutPortState.reset with hang := 1 }, spb := { OutPortState.reset with tailEnd := some 5 } } }
    [s.driven { function := .output, stored := true }, s.driven { function := .cue .cue0, stored := true },
      s.driven { function := .cueInverted .cue0, stored := false }, s.driven { function := .lock, stored := false },
      s.driven { function := .activeA, stored := false }, s.driven { function := .activeB, stored := false },
      live.driven { function := .lock, stored := true }, live.driven { function := .activeA, stored := true },
      live.driven { function := .input, stored := true }] =
      [some true, some false, some true, some true, some true, some true, some false, some false, none] := by decide +kernel
/-- E_RANGE: line, function, the cue of both cue functions, level; the cue number of another function is not checked. -/
theorem test_gset_codes :
    let r : GsetReq := { line := 5, function := 1, cue := 4, level := 1 }
    ([{ r with line := 6 }, { r with function := 7 }, { r with function := 2 }, { r with function := 3 }, { r with level := 2 }].all
        (fun r => answer (after (.gset 1 r) live) == [0x12])) = true ∧
      answer (after (.gset 1 r) live) = [0x00, 5, 1, 0, 1, 1] := by decide +kernel

theorem witness_ChipSelectFallFixesTheTransaction :
    full.running = true ∧ full.link.transaction = none ∧ full.LinkLaw ∧ full.FlagLaw :=
  ⟨rfl, rfl, ⟨by decide, by decide, nofun⟩, ⟨by decide, by decide +kernel⟩⟩
/-- MISO with an answer queued: the status byte 0xA1 (ATTN, two slots, one answer), the answer's five bytes, then 0; and what is posted
meanwhile is not sent. -/
theorem witness_ChipSelectFallFixesTheTransaction_miso :
    let s := after .chipSelectFall { live with link := { live.link with outbound := [oneAnswer] } }
    let u := s.postAnswer oneAnswer
    u.link.transaction = s.link.transaction ∧ [u.misoByte 0, u.misoByte 1, u.misoByte 2, u.misoByte 3, u.misoByte 4, u.misoByte 5,
      u.misoByte 6] = [0xA1, 0x81, 0x00, 0x00, 0x01, 0x00, 0x00] := by decide +kernel

theorem witness_ChipSelectRiseJudgesTheTransaction :
    let t : Transaction := { status := 0xA8, head := some oneAnswer, full := false, headLive := true }
    let s := { full with link := { full.link with transaction := some t } }
    s.link.transaction = some t ∧ [(0x39 : Byte)].length ≤ 6 ∧ t.headLive = true ∧ t.head = some oneAnswer ∧
      5 + oneAnswer.payload.length ≤ 6 ∧ [(0x39 : Byte)].head? = some 0x39 ∧ (0x39 : Byte) ≠ 0 ∧ t.full = false :=
  ⟨rfl, by decide, rfl, rfl, by decide, rfl, by decide, rfl⟩

theorem witness_FramingIsRefused :
    live.Ready ∧ (((0 : Byte) ++ (1 : Byte) : BitVec 16).toNat ≠ ([] : List Byte).length) ∧
      (((0 : Byte) ++ (0 : Byte) : BitVec 16).toNat = ([] : List Byte).length ∧ ∀ k : ReqType, k.code ≠ 0x0F) ∧
      (ReqType.tset.code = 0x02 ∧ ReqType.tset.fixedLength = some 23 ∧ ([] : List Byte).length ≠ 23) ∧ [(0x01 : Byte)].length < 4 :=
  ⟨live_ready, by decide, ⟨by decide, by intro k; cases k <;> decide⟩, ⟨rfl, rfl, by decide⟩, by decide⟩

theorem witness_EreadEclearAndEmask :
    live.Ready ∧ live.FlagLaw ∧ (0xE000 : FlagWord) &&& ~~~ flagPositions = 0 ∧ (0x100 : FlagWord) &&& ~~~ flagPositions ≠ 0 :=
  ⟨live_ready, ⟨by decide, by decide +kernel⟩, by decide +kernel, by decide +kernel⟩

theorem witness_XidentReportsThePart : live.Ready := live_ready

theorem witness_RequestRoundTrip :
    (Instr.lcfg 1 (config 1)).request? ≠ none ∧ (Instr.lcfg 1 (config 1)).wf = true := ⟨by simp [Instr.request?], rfl⟩

/-- A step from a state that meets every law. -/
theorem witness_laws :
    live.StoreLaw ∧ live.CaptureLaw ∧ live.RateLaw ∧ live.LinkLaw ∧ live.FlagLaw ∧ live.RingLaw ∧ live.StateLaw ∧ live.PoolLaw ∧
      ∃ t, step live = .next t := by
  refine ⟨⟨rfl, by intro e h; cases h⟩, ⟨by decide, trivial⟩, ⟨by decide, by decide⟩, ⟨by decide, by decide, nofun⟩,
    ⟨by decide, by decide +kernel⟩, ?_, ?_, ⟨?_, by decide⟩, ⟨_, rfl⟩⟩
  · intro i
    cases i <;> refine ⟨by decide, by decide, rfl, ?_, by decide, fun _ => ⟨rfl, rfl⟩⟩ <;>
      (intro older a newer h
       cases older <;> cases h)
  · intro i
    cases i <;> simp [live, State.reset, LaneMap.all, LaneMap.get, Lane.StateLaw, Lane.reset, LaneConfig.reset]
  · intro i
    cases i <;> exact ⟨by decide, by decide, by decide, fun _ => rfl, fun _ => rfl⟩

end Sys2Proof.Tests
end

/-! Strobe capture's own rules: the order test (R9), the append to a queue that may be full (R10, R11), the fields of a capture in an
answer (R15, R201); and with them TCAPS and TINJ (R15, R16). -/

namespace Sys2Proof.Machine

/-- A new local time passes the order test exactly when it is later than the newest entry's (R9). -/
theorem StrobeCapture.ordered_iff (c : StrobeCapture) (t : Time) :
    c.ordered t = true ↔ ∀ e, c.queue.getLast? = some e → 0 < (t - e.time).toInt := by
  unfold StrobeCapture.ordered
  cases c.queue.getLast? with
  | none => simp
  | some newest => simp [later, sdiff]

/-- A queue of at most 16 entries is full exactly at 16 (R11). -/
theorem StrobeCapture.full_iff {c : StrobeCapture} (h : c.queue.length ≤ 16) : c.full = true ↔ c.queue.length = 16 := by
  rw [StrobeCapture.full, decide_eq_true_iff, Config.captureDepth]
  omega

/-- An append to a queue of at most 16 entries: the entry takes the next sequence, and a full queue first loses its oldest entry, with
the lost counter and CAPLOST (R10, R11). -/
theorem State.appendCapture_eq {s : State} (h : s.strobe.queue.length ≤ 16) (t : Time) (o : Origin) :
    s.appendCapture t o = { s with
      strobe := { s.strobe with
        queue := (if s.strobe.queue.length = 16 then s.strobe.queue.tail else s.strobe.queue)
          ++ [{ seq := s.strobe.nextSeq, time := t, origin := o }]
        nextSeq := s.strobe.nextSeq + 1
        lost := if s.strobe.queue.length = 16 then min (s.strobe.lost + 1) 65535 else s.strobe.lost }
      link := { s.link with
        trackerFlags := if s.strobe.queue.length = 16 then s.link.trackerFlags ||| 0x02 else s.link.trackerFlags } } := by
  unfold State.appendCapture StrobeCapture.append
  by_cases hf : s.strobe.queue.length = 16
  · simp only [(StrobeCapture.full_iff h).2 hf, hf, if_true]
    rfl
  · simp only [mt (StrobeCapture.full_iff h).1 hf, hf, if_false, Bool.false_eq_true]

/-- A capture in an answer: its sequence, its local time and its origin, the injected one as 1 (R15). -/
theorem Capture.fields_eq (e : Capture) :
    e.fields = e.seq :: put48 e.time ++ [if e.origin = Origin.injected then (0x01 : Byte) else 0x00] := by
  obtain ⟨seq, time, origin⟩ := e
  cases origin <;> rfl

/-- TCAPS's work on a count of 0 to 16 (R15). -/
theorem capsOwner_of_le {n : Byte} (h : n.toNat ≤ 16) (s : State) :
    capsOwner n s = ({ s with strobe := { s.strobe with queue := s.strobe.queue.drop n.toNat } },
      [0x00, BitVec.ofNat 8 (min n.toNat s.strobe.queue.length), BitVec.ofNat 8 (s.strobe.queue.length - n.toNat), s.strobe.nextSeq]
        ++ put16 (BitVec.ofNat 16 s.strobe.lost) ++ ((s.strobe.queue.take n.toNat).map Capture.fields).flatten) := by
  simp [capsOwner, Config.captureDepth, Nat.not_lt.2 h, accept, ResultCode.code, nat8, nat16, put8]

/-- TCAPS refuses a count above 16 and changes nothing (R15). -/
theorem capsOwner_of_gt {n : Byte} (h : 16 < n.toNat) (s : State) : capsOwner n s = (s, [0x12]) :=
  if_pos h

/-- TINJ's work where the present count passes the order test (R16). -/
theorem injectOwner_of_ordered {s : State} (h : s.strobe.ordered s.count = true) :
    injectOwner s = (s.appendCapture s.count .injected, 0x00 :: s.strobe.nextSeq :: put48 s.count) :=
  if_pos h

/-- TINJ refuses a count that fails the order test and changes nothing (R16). -/
theorem injectOwner_of_not_ordered {s : State} (h : ¬ s.strobe.ordered s.count = true) : injectOwner s = (s, [0x22]) :=
  if_neg h

/-- TCAPS on a ready part: its work, then its answer (R15, R189). -/
theorem exec_tcaps_of_ready {s : State} (hs : s.Ready) (tag n : Byte) :
    exec (.tcaps tag n) s =
      .next ((capsOwner n s).1.postAnswer { type := 0x86, tag := tag, payload := (capsOwner n s).2 }) :=
  congrArg Host.Outcome.next (serve_ready (i := .tcaps tag n) hs rfl (capsOwner n))

/-- TINJ on a ready part: its work, then its answer (R16, R189). -/
theorem exec_tinj_of_ready {s : State} (hs : s.Ready) (tag : Byte) :
    exec (.tinj tag) s =
      .next ((injectOwner s).1.postAnswer { type := 0x87, tag := tag, payload := (injectOwner s).2 }) :=
  congrArg Host.Outcome.next (serve_ready (i := .tinj tag) hs rfl injectOwner)

/-- Settles O18, by the count asked for: up to 16 the oldest entries leave, above it nothing does. -/
theorem tcapsReturnsTheOldest : Obligations.TcapsReturnsTheOldest := by
  intro tag n s hs
  rw [exec_tcaps_of_ready hs]
  by_cases hn : n.toNat ≤ 16
  · simp only [capsOwner_of_le hn, if_pos hn, ← Capture.fields_eq]
  · simp only [capsOwner_of_gt (Nat.lt_of_not_le hn), if_neg hn]

/-- Settles O19, by the order test alone: the append where it passes, E_STALE where it fails. -/
theorem tinjCapturesThePresentCount : Obligations.TinjCapturesThePresentCount := by
  intro tag s hs hq
  rw [exec_tinj_of_ready hs]
  by_cases ho : s.strobe.ordered s.count = true
  · rw [injectOwner_of_ordered ho, if_pos ((StrobeCapture.ordered_iff _ _).1 ho), State.appendCapture_eq hq]
    rfl
  · rw [injectOwner_of_not_ordered ho, if_neg (mt (StrobeCapture.ordered_iff _ _).2 ho)]

end Sys2Proof.Machine

/-! The tracker's reading: house time at a count a known distance from the anchors (R19), its field in an answer (R201), and with them
TNOW (R42). -/

namespace Sys2Proof.Machine

/-- House time at a local time `d` ticks from the anchors: `round(d × q / 2^32)` as one floor division, an exact half upward
(R2, R19). -/
theorem Tracker.estimate_eq {t : Tracker} {l : Time} {d : Int} (h : d = (l - t.l0).toInt) :
    t.estimate l = t.h0 + BitVec.ofInt 48 (d + (2 * (d * t.q) + 2 ^ 32) / 2 ^ 33) := by
  subst h
  rfl

/-- The house-time field of an answer: presence 0 and six bytes of 0 in UNLOCKED, else presence 1 and the estimate (R19, R201). -/
theorem Tracker.houseField_eq (t : Tracker) (l : Time) :
    optField 6 put48 (t.house? l) =
      if t.state = .unlocked then [0, 0, 0, 0, 0, 0, 0] else 1 :: put48 (t.estimate l) := by
  by_cases hu : t.state = .unlocked
  · rw [Tracker.house?, if_pos hu, if_pos hu]
    rfl
  · rw [Tracker.house?, if_neg hu, if_neg hu]
    rfl

/-- TNOW on a ready part: the reading is posted and nothing else moves (R42, R189). -/
theorem exec_tnow_of_ready {s : State} (hs : s.Ready) (tag : Byte) :
    exec (.tnow tag) s = .next (s.postAnswer { type := 0x81, tag := tag, payload := 0x00 :: nowFields s }) :=
  congrArg Host.Outcome.next (serve_ready (i := .tnow tag) hs rfl fun s => (s, accept (nowFields s)))

/-- Settles O21: the house-time field by `Tracker.houseField_eq`, then the candidate's two cases. -/
theorem tnowReportsTheTracker : Obligations.TnowReportsTheTracker := by
  intro tag s d hs hd
  rw [exec_tnow_of_ready hs, nowFields, Tracker.houseField_eq, Tracker.estimate_eq hd]
  cases s.tracker.candidate with
  | none => simp [optField, put8, int32, nat16]
  | some c => simp [optField, put8, int32, nat16]

end Sys2Proof.Machine

/-! XIDENT: the part's figures as the bytes of its answer (R197, R201). -/

namespace Sys2Proof.Machine

/-- XIDENT's fields in the order of its field table, the numbers of two bytes big-endian: part code, revision, pages, words per page,
lanes, frame records, cue timers, general lines, inbound slots, outbound answers, largest payload (R197). -/
theorem identFields_eq :
    identFields =
      [0x04, 0x60, 1, 0x01, 0x00, 0x04, 0x00, 6, 128, 4, 6, 2, 8, 0x19, 0x00] := by
  decide

/-- XIDENT on a ready part: the part's figures are posted and nothing else moves (R189, R197). -/
theorem exec_xident_of_ready {s : State} (hs : s.Ready) (tag : Byte) :
    exec (.xident tag) s = .next (s.postAnswer { type := 0xF1, tag := tag, payload := 0x00 :: identFields }) :=
  congrArg Host.Outcome.next (serve_ready (i := .xident tag) hs rfl fun s => (s, accept identFields))

/-- Settles O54: the answer posted by `exec_xident_of_ready`, its fields byte for byte by `identFields_eq`. -/
theorem xidentReportsThePart : Obligations.XidentReportsThePart := by
  intro tag s hs
  rw [exec_xident_of_ready hs, identFields_eq]

end Sys2Proof.Machine

/-! The ring of a lane (R54 to R56): the places of its allocations, and what a release and an allocation make of them. -/

namespace Sys2Proof.Machine

/-- Every allocation of a list begins where those before it end, the first at offset `r` (R54). -/
def PlacedFrom (size : Nat) : Nat → List Alloc → Prop
  | _, [] => True
  | r, a :: rest => a.start = r % size ∧ PlacedFrom size (r + a.len) rest

/-- The places as the law of the ring states them. -/
theorem placedFrom_iff (size r : Nat) (as : List Alloc) :
    PlacedFrom size r as ↔ ∀ older a newer, as = older ++ a :: newer → a.start = (r + allocWords older) % size := by
  induction as generalizing r with
  | nil => simp [PlacedFrom]
  | cons b rest ih =>
    constructor
    · rintro ⟨hb, hrest⟩ older a newer h
      cases older with
      | nil =>
        obtain ⟨rfl, -⟩ := List.cons.inj h
        simpa [allocWords] using hb
      | cons c older =>
        obtain ⟨rfl, ht⟩ := List.cons.inj h
        rw [(ih (r + b.len)).mp hrest older a newer ht]
        simp [allocWords, Nat.add_assoc]
    · intro h
      refine ⟨by simpa [allocWords] using h [] b rest rfl, (ih (r + b.len)).mpr fun older a newer ht => ?_⟩
      rw [h (b :: older) a newer (by rw [ht]; rfl)]
      simp [allocWords, Nat.add_assoc]

/-- The places matter modulo the region's size alone. -/
theorem placedFrom_mod (size r : Nat) (as : List Alloc) : PlacedFrom size (r % size) as ↔ PlacedFrom size r as := by
  simp only [placedFrom_iff, Nat.mod_add_mod]

/-- Marks do not move an allocation. -/
theorem placedFrom_map (size r : Nat) (as : List Alloc) (f : Alloc → Alloc) (hs : ∀ a, (f a).start = a.start)
    (hl : ∀ a, (f a).len = a.len) : PlacedFrom size r (as.map f) ↔ PlacedFrom size r as := by
  induction as generalizing r with
  | nil => exact Iff.rfl
  | cons a rest ih => simp only [List.map_cons, PlacedFrom, hs, hl, ih]

/-- An allocation made at the end of a list that is in place is in place. -/
theorem placedFrom_append (size r : Nat) (as : List Alloc) (a : Alloc) (h : PlacedFrom size r as)
    (ha : a.start = (r + allocWords as) % size) : PlacedFrom size r (as ++ [a]) := by
  induction as generalizing r with
  | nil => exact ⟨by simpa [allocWords] using ha, trivial⟩
  | cons b rest ih => exact ⟨h.1, ih _ h.2 (by simpa [allocWords, Nat.add_assoc] using ha)⟩

/-- Reclaiming (R56) moves the reclaim offset past what it takes: what is left is in place and ends where it ended, and its oldest
allocation is in use. -/
theorem reclaimFrom_spec (size : Nat) (as : List Alloc) (r : Nat) (hr : r < size) (h : PlacedFrom size r as) :
    (reclaimFrom size as r).2 < size ∧ PlacedFrom size (reclaimFrom size as r).2 (reclaimFrom size as r).1 ∧
      ((reclaimFrom size as r).2 + allocWords (reclaimFrom size as r).1) % size = (r + allocWords as) % size ∧
      ∀ a, (reclaimFrom size as r).1.head? = some a → a.released = false := by
  induction as generalizing r with
  | nil => exact ⟨hr, trivial, rfl, by simp [reclaimFrom]⟩
  | cons a rest ih =>
    unfold reclaimFrom
    split
    · obtain ⟨hlt, hp, hend, hhead⟩ :=
        ih ((r + a.len) % size) (Nat.mod_lt _ (by omega)) ((placedFrom_mod size _ rest).mpr h.2)
      refine ⟨hlt, hp, ?_, hhead⟩
      rw [hend, Nat.mod_add_mod]
      simp [allocWords, Nat.add_assoc]
    · rename_i hrel
      exact ⟨hr, h, rfl, by simpa using hrel⟩

/-- A ring in order, whatever its lane's state: the law of the ring but for what it says of OFF. -/
structure Lane.Ring (l : Lane) : Prop where
  fill : l.fill ≤ l.config.regionSize
  reclaim : l.reclaimOffset < l.config.regionSize
  write : l.writeOffset = (l.reclaimOffset + l.fill) % l.config.regionSize
  placed : PlacedFrom l.config.regionSize l.reclaimOffset l.allocs
  oldest : ∀ a, l.allocs.head? = some a → a.released = false

/-- The ring holds nothing and its offsets are at 0 (R52). -/
def Lane.ringEmpty (l : Lane) : Prop := l.allocs = [] ∧ l.reclaimOffset = 0

theorem Lane.ringLaw_iff (l : Lane) : l.RingLaw ↔ l.Ring ∧ (l.state = .off → l.ringEmpty) := by
  constructor
  · rintro ⟨hfill, hrec, hw, hp, hold, hoff⟩
    exact ⟨⟨hfill, hrec, hw, (placedFrom_iff _ _ _).mpr hp, hold⟩, hoff⟩
  · rintro ⟨⟨hfill, hrec, hw, hp, hold⟩, hoff⟩
    exact ⟨hfill, hrec, hw, (placedFrom_iff _ _ _).mp hp, hold, hoff⟩

theorem LaneConfig.regionSize_pos (c : LaneConfig) : 0 < c.regionSize := by
  simp [LaneConfig.regionSize, Config.pageWords]

/-- An empty ring at offset 0 is in order. -/
theorem Lane.ring_of_empty {l : Lane} (h : l.ringEmpty) (hw : l.writeOffset = 0) : l.Ring := by
  obtain ⟨ha, hr⟩ := h
  have hf : l.fill = 0 := by simp [Lane.fill, ha]
  refine ⟨by omega, hr ▸ l.config.regionSize_pos, by simp [hw, hr, hf], ?_, by simp [ha]⟩
  rw [ha]
  trivial

/-- `m` is `l` after work that moves no configuration and no write offset, and keeps a ring in order. -/
structure RingKept (l m : Lane) : Prop where
  config : m.config = l.config
  write : m.writeOffset = l.writeOffset
  ring : l.Ring → m.Ring
  empty : l.ringEmpty → m.ringEmpty

/-- Work that leaves the ring's own fields keeps it. -/
theorem RingKept.of_same {l m : Lane} (hc : m.config = l.config) (hw : m.writeOffset = l.writeOffset)
    (hr : m.reclaimOffset = l.reclaimOffset) (ha : m.allocs = l.allocs) : RingKept l m := by
  have hf : m.fill = l.fill := by rw [Lane.fill, ha]; rfl
  refine ⟨hc, hw, fun h => ⟨?_, ?_, ?_, ?_, ?_⟩, fun h => ⟨ha.trans h.1, hr.trans h.2⟩⟩
  · rw [hf, hc]; exact h.fill
  · rw [hr, hc]; exact h.reclaim
  · rw [hw, hr, hf, hc]; exact h.write
  · rw [hc, hr, ha]; exact h.placed
  · rw [ha]; exact h.oldest

theorem RingKept.refl (l : Lane) : RingKept l l := .of_same rfl rfl rfl rfl

theorem RingKept.trans {l m n : Lane} (h : RingKept l m) (k : RingKept m n) : RingKept l n :=
  ⟨k.config.trans h.config, k.write.trans h.write, fun e => k.ring (h.ring e), fun e => k.empty (h.empty e)⟩

/-- An allocation after the release of the one at offset `o` (R56). -/
def Alloc.markAt (o : Nat) (a : Alloc) : Alloc := if a.start = o then { a with released := true } else a

theorem Alloc.markAt_start (o : Nat) (a : Alloc) : (a.markAt o).start = a.start := by
  unfold Alloc.markAt
  split <;> rfl

theorem Alloc.markAt_len (o : Nat) (a : Alloc) : (a.markAt o).len = a.len := by
  unfold Alloc.markAt
  split <;> rfl

/-- A release (R56). -/
theorem releaseAlloc_ringKept (l : Lane) (o : Nat) : RingKept l (l.releaseAlloc o) := by
  refine ⟨rfl, rfl, fun h => ?_, fun ⟨ha, hr⟩ => by simp [Lane.ringEmpty, Lane.releaseAlloc, ha, hr, reclaimFrom]⟩
  have hwords : allocWords (l.allocs.map (Alloc.markAt o)) = l.fill := by
    simp only [allocWords, List.map_map, Lane.fill]
    exact congrArg List.sum (List.map_congr_left fun a _ => Alloc.markAt_len o a)
  obtain ⟨hlt, hp, hend, hhead⟩ := reclaimFrom_spec l.config.regionSize (l.allocs.map (Alloc.markAt o)) l.reclaimOffset h.reclaim
    ((placedFrom_map _ _ _ _ (Alloc.markAt_start o) (Alloc.markAt_len o)).mpr h.placed)
  exact ⟨(releaseAlloc_released l o).fill.trans h.fill, hlt, by rw [hwords, ← h.write] at hend; exact hend.symm, hp, hhead⟩

theorem releaseHead_ringKept (l : Lane) : RingKept l l.releaseHead := by
  unfold Lane.releaseHead
  split
  · exact .refl l
  · exact (releaseAlloc_ringKept l _).trans (.of_same rfl rfl rfl rfl)

theorem releaseWhere_ringKept (l : Lane) (p : FrameRecord → Bool) : RingKept l (l.releaseWhere p) := by
  have h : ∀ (fs : List FrameRecord) (m : Lane), RingKept m (fs.foldl (fun m f => m.releaseAlloc f.offset) m) := by
    intro fs
    induction fs with
    | nil => exact RingKept.refl
    | cons f rest ih => exact fun m => (releaseAlloc_ringKept m f.offset).trans (ih _)
  exact (h (l.queue.filter p) l).trans (.of_same rfl rfl rfl rfl)

/-- An allocation that the free space holds (R55). -/
theorem allocate_ring {l : Lane} {w : Nat} (h : l.Ring) (hw : w ≤ l.free) : (l.allocate w).Ring := by
  have hroom : l.fill + w ≤ l.config.regionSize := by
    have := h.fill
    simp only [Lane.free] at hw
    omega
  refine ⟨by rw [allocate_fill]; exact hroom, h.reclaim, ?_, ?_, ?_⟩
  · rw [allocate_fill, ← Nat.add_assoc]
    change (l.writeOffset + w) % _ = (l.reclaimOffset + l.fill + w) % _
    rw [h.write, Nat.mod_add_mod]
    rfl
  · exact placedFrom_append _ _ _ _ h.placed h.write
  · intro a ha
    cases hl : l.allocs with
    | nil =>
      simp only [Lane.allocate, hl, List.nil_append, List.head?_cons, Option.some.injEq] at ha
      rw [← ha]
    | cons b rest =>
      simp only [Lane.allocate, hl, List.cons_append, List.head?_cons, Option.some.injEq] at ha
      exact h.oldest a (by rw [hl, ← ha]; rfl)

end Sys2Proof.Machine

/-! What playing, requests and cue actions make of a lane's ring (R87 to R94, R104): each keeps it in order. -/

namespace Sys2Proof.Machine

theorem watermark_ringKept (l : Lane) (n : Nat) : RingKept l (l.watermark n) := by
  rw [watermark_frame]
  exact .of_same rfl rfl rfl rfl

theorem commit_ringKept (l : Lane) : RingKept l l.commit := by
  unfold Lane.commit
  split
  · exact .refl l
  · exact (releaseWhere_ringKept l _).trans (.of_same rfl rfl rfl rfl)

theorem markHeadPlaying_ringKept (l : Lane) : RingKept l l.markHeadPlaying := by
  unfold Lane.markHeadPlaying
  split <;> exact .of_same rfl rfl rfl rfl

theorem beginEffects_ringKept (l : Lane) (f : FrameRecord) : RingKept l (l.beginEffects f) := by
  have tagged : RingKept l (match f.tag with
      | none => l
      | some t => { l.raise .tag with lastTag := some t }) := by
    split <;> exact .of_same rfl rfl rfl rfl
  unfold Lane.beginEffects
  dsimp only
  split
  · exact tagged
  · split
    · exact tagged.trans (commit_ringKept _)
    · exact tagged

theorem enterHead_ringKept (l : Lane) (c : Cursor) : RingKept l (l.enterHead c) := by
  unfold Lane.enterHead
  split
  · exact .of_same rfl rfl rfl rfl
  · have placed : RingKept l { l.markHeadPlaying with cursor := some c } :=
      (markHeadPlaying_ringKept l).trans (.of_same rfl rfl rfl rfl)
    dsimp only
    split
    · exact placed
    · exact placed.trans (beginEffects_ringKept _ _)

theorem endStops_ringKept (k : BlockKind) {l m : Lane} (h : RingKept l m) : RingKept l (l.endStops k m) := by
  cases k with
  | trim => exact h
  | start => exact h
  | slip => exact h
  | stop => exact .of_same rfl rfl rfl rfl

/-- A frame end, through every frame it passes (R98 to R102). -/
theorem frameEnd_ringKept (k : BlockKind) (fuel : Nat) (c : Cursor) (l : Lane) : RingKept l (l.frameEnd k fuel c) := by
  induction fuel generalizing c l with
  | zero => exact .refl l
  | succ n ih =>
    have released := releaseHead_ringKept l
    unfold Lane.frameEnd
    split
    · exact .of_same rfl rfl rfl rfl
    · rename_i f rest _
      dsimp only
      split
      · exact released.trans (endStops_ringKept k (.of_same rfl rfl rfl rfl))
      · split
        · exact released.trans (endStops_ringKept k (.of_same rfl rfl rfl rfl))
        · rename_i next _ _
          split
          · exact released.trans (endStops_ringKept k (.of_same rfl rfl rfl rfl))
          · have counted : RingKept l.releaseHead
                (if frameGap f next < -256 then
                  l.releaseHead.countUp (fun n => { n with overlaps := satInc n.overlaps }) else l.releaseHead) := by
              split <;> exact .of_same rfl rfl rfl rfl
            have entered := (released.trans counted).trans
              (enterHead_ringKept _ { index := (c.index - f.samples) + skipOf (frameGap f next), frac := c.frac })
            split
            · exact entered.trans (ih _ _)
            · exact entered

theorem advance_ringKept (k : BlockKind) (step : Nat) (l : Lane) (f : FrameRecord) (c : Cursor) :
    RingKept l (l.advance k step f c) := by
  unfold Lane.advance
  dsimp only
  split
  · exact frameEnd_ringKept k _ _ l
  · exact .of_same rfl rfl rfl rfl

theorem produce_ringKept (store : Memory) (k : BlockKind) (step n j : Nat) (l : Lane) :
    RingKept l (produce store k step n j l).1 := by
  induction n generalizing j l with
  | zero => exact .refl l
  | succ n ih =>
    unfold produce
    split
    · exact (advance_ringKept k step l _ _).trans (ih _ _)
    · exact ih _ _

theorem produceBlock_ringKept (store : Memory) (k : BlockKind) (step : Nat) (l : Lane) :
    RingKept l (l.produceBlock store k step).1 :=
  RingKept.trans (m := { l with lastStep := some step }) (.of_same rfl rfl rfl rfl) (produce_ringKept _ _ _ _ _ _)

theorem dropLate_ringKept (c0 : Time) (n : Nat) (l : Lane) : RingKept l (l.dropLate c0 n) := by
  induction n generalizing l with
  | zero => exact .refl l
  | succ n ih =>
    unfold Lane.dropLate
    split
    · exact .refl l
    · split
      · exact .refl l
      · have dropped : RingKept l l.dropHead := (releaseHead_ringKept l).trans (.of_same rfl rfl rfl rfl)
        exact dropped.trans (ih _)

/-- Start alignment, whatever it comes to (R95, R96). -/
theorem align_ringKept (target aim : Time) (l : Lane) : RingKept l (l.align target aim).lane := by
  unfold Lane.align
  split
  · exact .refl l
  · rename_i j0 c0 _
    have dropped := dropLate_ringKept c0 l.queue.length l
    dsimp only
    split
    · exact dropped.trans (.of_same rfl rfl rfl rfl)
    · split
      · split
        · exact dropped.trans (.of_same rfl rfl rfl rfl)
        · exact dropped.trans (enterHead_ringKept _ _)
      · exact dropped.trans (enterHead_ringKept _ _)

theorem startBlock_ringKept (env : BoundaryEnv) (l : Lane) (j0 : Nat) : RingKept l (l.startBlock env j0).1 := by
  unfold Lane.startBlock
  refine RingKept.trans ?_ (produce_ringKept _ _ _ _ _ _)
  exact .of_same rfl rfl rfl rfl

theorem workArmed_ringKept (env : BoundaryEnv) (l : Lane) : RingKept l (l.workArmed env).1 := by
  unfold Lane.workArmed
  split
  · rename_i t f _ _ _
    have aligned := align_ringKept t f.time l
    split
    all_goals
      rename_i e
      rw [e] at aligned
    · exact aligned
    · exact aligned
    · exact aligned.trans (startBlock_ringKept env _ _)
  · exact .refl l

theorem refreshAim_ringKept (l : Lane) (t : Time) : RingKept l (l.refreshAim t) := by
  unfold Lane.refreshAim
  split
  · split <;> exact .of_same rfl rfl rfl rfl
  · exact .refl l
  · exact .refl l

theorem workBridging_ringKept (env : BoundaryEnv) (l : Lane) : RingKept l (l.workBridging env).1 := by
  unfold Lane.workBridging
  split
  · exact .refl l
  · rename_i t _
    have aimed := refreshAim_ringKept l t
    dsimp only
    split
    · exact aimed.trans (.of_same rfl rfl rfl rfl)
    · rename_i a _
      have aligned := aimed.trans (align_ringKept t a (l.refreshAim t))
      split
      all_goals
        rename_i e
        rw [e] at aligned
      · exact aligned
      · exact aligned.trans (.of_same rfl rfl rfl rfl)
      · exact aligned.trans (startBlock_ringKept env _ _)

theorem bridgeToHead_ringKept (env : BoundaryEnv) (l : Lane) : RingKept l (l.bridgeToHead env).1 := by
  unfold Lane.bridgeToHead
  refine RingKept.trans ?_ (workBridging_ringKept env _)
  exact .of_same rfl rfl rfl rfl

theorem workPurged_ringKept (env : BoundaryEnv) (l : Lane) : RingKept l (l.workPurged env).1 := by
  unfold Lane.workPurged
  split
  · exact .of_same rfl rfl rfl rfl
  · exact bridgeToHead_ringKept env l

theorem workStarved_ringKept (env : BoundaryEnv) (l : Lane) : RingKept l (l.workStarved env).1 := by
  unfold Lane.workStarved
  split
  · exact .refl l
  · exact bridgeToHead_ringKept env l

theorem workHeld_ringKept (env : BoundaryEnv) (l : Lane) : RingKept l (l.workHeld env).1 := by
  unfold Lane.workHeld
  split
  · exact workPurged_ringKept env l
  · split
    · exact .refl l
    · refine RingKept.trans ?_ (workBridging_ringKept env _)
      exact .of_same rfl rfl rfl rfl

theorem slip_ringKept (env : BoundaryEnv) (l : Lane) (target : Time) (e : Int) : RingKept l (l.slip env target e).1 := by
  have produced := RingKept.trans (l := l) (m := (l.raise .slip).countUp (fun c => { c with slips := satInc c.slips }))
    (.of_same rfl rfl rfl rfl) (produceBlock_ringKept env.store .slip (plainStep env.tracker) _)
  unfold Lane.slip Lane.afterSlip
  dsimp only
  split
  · exact produced
  · split <;> exact produced.trans (.of_same rfl rfl rfl rfl)

theorem workPlaying_ringKept (env : BoundaryEnv) (l : Lane) : RingKept l (l.workPlaying env).1 := by
  unfold Lane.workPlaying
  split
  · exact workPurged_ringKept env l
  · split
    · exact .of_same rfl rfl rfl rfl
    · dsimp only
      split
      · refine RingKept.trans ?_ (produceBlock_ringKept _ _ _ _)
        exact .of_same rfl rfl rfl rfl
      · refine RingKept.trans ?_ (slip_ringKept _ _ _ _)
        exact .of_same rfl rfl rfl rfl

theorem stoppingBlock_ringKept (env : BoundaryEnv) (l : Lane) : RingKept l (l.stoppingBlock env).1 := by
  unfold Lane.stoppingBlock
  split
  · split
    · refine RingKept.trans ?_ (produceBlock_ringKept _ _ _ _)
      exact .of_same rfl rfl rfl rfl
    · exact .refl l
  · exact .refl l

theorem completeStop_ringKept (l : Lane) : RingKept l l.completeStop := by
  have flushed : RingKept l (if (l.halt.map Halt.flush).getD false then l.discardCursor.flushQueue else l.discardCursor) := by
    split
    · refine RingKept.trans ?_ (releaseWhere_ringKept _ _)
      exact .of_same rfl rfl rfl rfl
    · exact .of_same rfl rfl rfl rfl
  exact flushed.trans (.of_same rfl rfl rfl rfl)

/-- The work of every state of a playback lane (R88 to R94). -/
theorem workState_ringKept (env : BoundaryEnv) (l : Lane) : RingKept l (l.workState env).1 := by
  unfold Lane.workState
  split
  · exact .refl l
  · exact .refl l
  · exact .refl l
  · exact .refl l
  · exact workArmed_ringKept env l
  · exact workPlaying_ringKept env l
  · exact workBridging_ringKept env l
  · exact workStarved_ringKept env l
  · exact workHeld_ringKept env l
  · exact (stoppingBlock_ringKept env l).trans (completeStop_ringKept _)

theorem go_ringKept {l m : Lane} {now : Time} (h : l.go now = .ok m) : RingKept l m := by
  unfold Lane.go at h
  split at h
  · cases h
  · split at h <;> split at h
    · cases h
      exact .of_same rfl rfl rfl rfl
    · cases h
    · split at h <;> cases h
      exact .of_same rfl rfl rfl rfl
    · cases h

theorem discardFilling_ringKept (l : Lane) : RingKept l l.discardFilling := by
  unfold Lane.discardFilling
  split
  · exact .refl l
  · exact (releaseAlloc_ringKept l _).trans (.of_same rfl rfl rfl rfl)

theorem haltCapture_ringKept (l : Lane) (flush : Bool) : RingKept l (l.haltCapture flush) := by
  have stopped : RingKept l
      (if l.state = .running then { l.discardFilling with state := .stopped, entryTime := none } else l) := by
    split
    · exact (discardFilling_ringKept l).trans (.of_same rfl rfl rfl rfl)
    · exact .refl l
  unfold Lane.haltCapture
  dsimp only
  split
  · exact stopped.trans (releaseWhere_ringKept _ _)
  · exact stopped

theorem haltPlay_ringKept (l : Lane) (flush : Bool) : RingKept l (l.haltPlay flush) := by
  unfold Lane.haltPlay
  split
  · split
    · exact releaseWhere_ringKept l _
    · exact .refl l
  · split <;> exact .of_same rfl rfl rfl rfl

theorem halting_ringKept {l m : Lane} {flush : Bool} (h : l.halting flush = .ok m) : RingKept l m := by
  unfold Lane.halting at h
  split at h
  · cases h
  · split at h <;> cases h
    · exact haltPlay_ringKept l flush
    · exact haltCapture_ringKept l flush

theorem apply_ringKept (a : LaneAction) (now : Time) (l : Lane) : RingKept l (a.apply now l).1 := by
  unfold LaneAction.apply
  cases a.action with
  | go =>
    dsimp only
    split
    · rename_i e; exact go_ringKept e
    · exact .refl l
  | halt flush =>
    dsimp only
    split
    · rename_i e; exact halting_ringKept e
    · exact .refl l

theorem applyActions_ringKept (now : Time) (as : List LaneAction) (l : Lane) : RingKept l (applyActions now as l).1 := by
  induction as generalizing l with
  | nil => exact .refl l
  | cons a rest ih => exact (apply_ringKept a now l).trans (ih _)

/-- A lane's whole work at a boundary (R87, R159). -/
theorem boundaryWork_ringKept (env : BoundaryEnv) (l : Lane) : RingKept l (l.boundaryWork env).lane := by
  have cued : RingKept l (l.cueStep env).1 := by
    unfold Lane.cueStep
    refine RingKept.trans ?_ (applyActions_ringKept _ _ _)
    exact .of_same rfl rfl rfl rfl
  unfold Lane.boundaryWork
  dsimp only
  split
  · have committed : RingKept (l.cueStep env).1
        (if (l.cueStep env).1.switchDue (env.target (l.cueStep env).1) then (l.cueStep env).1.commit else (l.cueStep env).1) := by
      split
      · exact commit_ringKept _
      · exact .refl _
    exact ((cued.trans committed).trans (workState_ringKept env _)).trans (watermark_ringKept _ _)
  · exact cued

end Sys2Proof.Machine

/-! The laws of a lane (R46, R54 to R56, R70) under the operations that requests, the tracker, the input port and a boundary make of
it. -/

namespace Sys2Proof.Machine

/-! ## Work that takes no new room -/

/-- `m` is `l` after work that takes no room, no record and no other state machine, and neither enables nor disables. -/
structure LaneKept (l m : Lane) : Prop where
  worked : Worked l m
  ring : RingKept l m
  off : m.state = .off ↔ l.state = .off

theorem LaneKept.refl (l : Lane) : LaneKept l l := ⟨.refl l, .refl l, Iff.rfl⟩

theorem LaneKept.trans {l m n : Lane} (h : LaneKept l m) (k : LaneKept m n) : LaneKept l n :=
  ⟨h.worked.trans k.worked, h.ring.trans k.ring, k.off.trans h.off⟩

/-- The pending cue actions and the event flags are in no law. -/
theorem LaneKept.of_marks (l : Lane) (as : List LaneAction) (fs : Byte) : LaneKept l { l with actions := as, flags := fs } :=
  ⟨⟨rfl, .inl rfl, le_refl _, le_refl _, id, id, id⟩, .of_same rfl rfl rfl rfl, Iff.rfl⟩

/-- A release, and whatever else leaves state, configuration and records (R71). -/
theorem LaneKept.of_released {l m : Lane} (h : Released l m) (hr : RingKept l m) (hq : m.queue.length ≤ l.queue.length) :
    LaneKept l m := by
  have hs : m.state = l.state := by rw [h.frame]
  have hf : m.filling = l.filling := by rw [h.frame]
  refine ⟨⟨hr.config, .inl hf, hq, h.fill, h.empty, fun hl => ?_, fun e => hs ▸ e⟩, hr, by rw [hs]⟩
  rwa [Lane.StateLaw, hr.config, hs]

theorem releaseHead_kept (l : Lane) : LaneKept l l.releaseHead :=
  .of_released (releaseHead_released l) (releaseHead_ringKept l) (releaseHead_played l).queue

theorem releaseWhere_kept (l : Lane) (p : FrameRecord → Bool) : LaneKept l (l.releaseWhere p) :=
  .of_released (releaseWhere_released l p) (releaseWhere_ringKept l p) (releaseWhere_played l p).queue

theorem watermark_kept (l : Lane) (n : Nat) : LaneKept l (l.watermark n) := by
  rw [watermark_frame]
  exact .of_marks l l.actions _

/-- The binding, the cursor and the counters of playing are in no law. -/
theorem LaneKept.of_binding (l : Lane) (cur : Option StreamId) (sw : Option Switch) (n : PlayCounters) :
    LaneKept l { l with current := cur, switch := sw, counters := n } :=
  ⟨⟨rfl, .inl rfl, le_refl _, le_refl _, id, id, id⟩, .of_same rfl rfl rfl rfl, Iff.rfl⟩

theorem commit_kept (l : Lane) : LaneKept l l.commit := by
  unfold Lane.commit
  split
  · exact .refl l
  · exact (releaseWhere_kept l _).trans (.of_binding _ _ _ _)

theorem bindNow_kept (l : Lane) (named : Option StreamId) : LaneKept l (l.bindNow named) := by
  have unswitched : LaneKept l (match l.switch with
      | none => l
      | some sw => { l.releaseWhere (fun f => f.stream == sw.stream && named != some sw.stream) with switch := none }) := by
    split
    · exact .refl l
    · exact (releaseWhere_kept l _).trans (.of_binding _ _ _ _)
  exact (unswitched.trans (releaseWhere_kept _ _)).trans (.of_binding _ _ _ _)

theorem setSwitch_kept (l : Lane) (sw : Switch) : LaneKept l (l.setSwitch sw) := by
  have released : LaneKept l (match l.switch with
      | none => l
      | some old =>
        if old.stream = sw.stream then l.releaseWhere (fun f => f.stream == old.stream && earlier f.time sw.time)
        else l.releaseWhere (fun f => f.stream == old.stream)) := by
    split
    · exact .refl l
    · split <;> exact releaseWhere_kept l _
  exact released.trans (.of_binding _ _ _ _)

theorem settleSwitch_kept (l : Lane) (late : Option Time) (sw : Switch) : LaneKept l (l.settleSwitch late sw) := by
  unfold Lane.settleSwitch
  split
  · exact commit_kept l
  · exact releaseWhere_kept l _

theorem purge_kept (epoch : Byte) (candidate : Option Byte) (l : Lane) : LaneKept l (l.purge epoch candidate) := by
  unfold Lane.purge
  split
  · exact ((releaseWhere_kept l _).trans (.of_binding _ _ _ _)).trans (watermark_kept _ _)
  · exact .refl l

theorem commitForFrame_kept (s : State) (l : Lane) : LaneKept l (s.commitForFrame l) := by
  unfold State.commitForFrame
  split
  · exact (commit_kept l).trans (watermark_kept _ _)
  · exact .refl l

/-- A lane in OFF takes neither LGO nor LHALT (R85, R86, R157, R158). -/
theorem apply_off (a : LaneAction) (now : Time) (l : Lane) (h : l.state = .off) : (a.apply now l).1 = l := by
  unfold LaneAction.apply
  cases a.action <;> simp [Lane.go, Lane.halting, h]

theorem applyActions_off (now : Time) (as : List LaneAction) (l : Lane) (h : l.state = .off) :
    (applyActions now as l).1 = l := by
  induction as with
  | nil => rfl
  | cons a rest ih =>
    simp only [applyActions, apply_off a now l h]
    exact ih

theorem go_kept {l m : Lane} {now : Time} (h : l.go now = .ok m) : LaneKept l m := by
  have hw := go_worked h
  refine ⟨hw, go_ringKept h, hw.off, fun hoff => ?_⟩
  simp [Lane.go, hoff] at h

theorem halting_kept {l m : Lane} {flush : Bool} (h : l.halting flush = .ok m) : LaneKept l m := by
  have hw := halting_worked h
  refine ⟨hw, halting_ringKept h, hw.off, fun hoff => ?_⟩
  simp [Lane.halting, hoff] at h

/-- A lane's whole work at a boundary (R87, R159). -/
theorem boundaryWork_kept (env : BoundaryEnv) (l : Lane) : LaneKept l (l.boundaryWork env).lane := by
  have hw := boundaryWork_worked env l
  refine ⟨hw, boundaryWork_ringKept env l, hw.off, fun hoff => ?_⟩
  have cued : (l.cueStep env).1.state = .off := by
    unfold Lane.cueStep
    rw [applyActions_off]
    all_goals exact hoff
  unfold Lane.boundaryWork
  simp [Lane.isPlay, Lane.enabled, cued]

/-- The loss of the input clock at a lane (R164). -/
theorem clockLost_kept (l : Lane) : LaneKept l l.clockLost := by
  unfold Lane.clockLost
  split
  · have hf := discardFilling_frame l
    have hs : l.discardFilling.state = l.state := by rw [hf]
    have hc : l.discardFilling.config = l.config := by rw [hf]
    have hq : l.discardFilling.queue = l.queue := by rw [hf]
    have hn : l.discardFilling.filling = none := by rw [hf]
    refine ⟨⟨hc, .inr hn, hq ▸ le_refl _, discardFilling_fill l, discardFilling_empty l, fun hl => ?_, fun e => hs ▸ e⟩,
      (discardFilling_ringKept l).trans (.of_same rfl rfl rfl rfl), ?_⟩
    · simpa only [Lane.StateLaw, hc, hs] using hl
    · rw [hs]
  · exact .refl l

theorem LaneKept.ringLaw {l m : Lane} (h : LaneKept l m) (hl : l.RingLaw) : m.RingLaw := by
  rw [Lane.ringLaw_iff] at hl ⊢
  exact ⟨h.ring.ring hl.1, fun e => h.ring.empty (hl.2 (h.off.mp e))⟩

theorem LaneKept.held {l m : Lane} (h : LaneKept l m) : m.held ≤ l.held := by
  have hq := h.worked.queue
  unfold Lane.held
  rcases h.worked.filling with hf | hf <;> rw [hf]
  · omega
  · simp only [Option.isSome_none, Bool.false_eq_true, if_false]
    omega

theorem LaneKept.poolLaw {l m : Lane} (h : LaneKept l m) (hl : l.PoolLaw) : m.PoolLaw := by
  obtain ⟨hlow, hhigh, hheld, hoff, hplay⟩ := hl
  have hle := h.held
  unfold Lane.PoolLaw
  rw [h.worked.config]
  refine ⟨hlow, hhigh, by omega, fun e => by have := hoff (h.off.mp e); omega, fun hd => ?_⟩
  rcases h.worked.filling with hf | hf
  · exact hf.trans (hplay hd)
  · exact hf

theorem LaneKept.enabled {l m : Lane} (h : LaneKept l m) : m.enabled = l.enabled := by
  rw [Bool.eq_iff_iff]
  simp [Lane.enabled, h.off]

/-! ## Admission (R76) -/

theorem insertByTime_length (f : FrameRecord) (q : List FrameRecord) : (insertByTime f q).length = q.length + 1 := by
  induction q with
  | nil => rfl
  | cons g rest ih =>
    unfold insertByTime
    split
    · simp [ih]
    · rfl

/-- A check that is passed, and the checks behind it. -/
theorem check_none {p : Prop} [Decidable p] {α : Type} {code : α} {rest : Option α} :
    (if p then some code else rest) = none ↔ ¬p ∧ rest = none := by
  by_cases h : p <;> simp [h]

/-- An admitted frame finds room and a record (R73, checks 11 and 12). -/
theorem admission_none {s : State} {l : Lane} {r : LframeReq} (h : s.admission l r = none) :
    l.queue.length < l.config.quota ∧ frameWords r ≤ l.free := by
  simp only [State.admission, check_none] at h
  obtain ⟨-, -, -, -, -, -, quota, room, -⟩ := h
  exact ⟨Nat.lt_of_not_le quota, Nat.le_of_not_lt room⟩

/-- The admission's record and allocation, but for its event flags (R76). -/
theorem takeFrame_eq (l : Lane) (r : LframeReq) :
    l.takeFrame r = { l.allocate (frameWords r) with
      queue := insertByTime (frameRecord r l.writeOffset) l.queue, flags := (l.takeFrame r).flags } := by
  unfold Lane.takeFrame
  rw [watermark_frame]
  rfl

theorem takeFrame_ringLaw {l : Lane} {r : LframeReq} (hp : l.state ≠ .off) (hw : frameWords r ≤ l.free) (hl : l.RingLaw) :
    (l.takeFrame r).RingLaw := by
  rw [Lane.ringLaw_iff] at hl ⊢
  rw [takeFrame_eq]
  have placed := allocate_ring hl.1 hw
  exact ⟨⟨placed.fill, placed.reclaim, placed.write, placed.placed, placed.oldest⟩, fun e => absurd e hp⟩

theorem takeFrame_poolLaw {l : Lane} {r : LframeReq} (hp : l.isPlay = true) (hq : l.queue.length < l.config.quota)
    (hl : l.PoolLaw) : (l.takeFrame r).PoolLaw := by
  obtain ⟨hlow, hhigh, -, -, hplay⟩ := hl
  simp only [Lane.isPlay, Lane.enabled, Bool.and_eq_true, bne_iff_ne, beq_iff_eq] at hp
  have hf : l.filling = none := hplay hp.2
  rw [takeFrame_eq]
  refine ⟨hlow, hhigh, ?_, fun e => absurd e hp.1, fun _ => hf⟩
  simp only [Lane.held, Lane.allocate, insertByTime_length, hf]
  simpa using hq

/-! ## LCFG (R47 to R52) -/

theorem regionSize_congr {c d : LaneConfig} (hf : c.firstPage = d.firstPage) (hl : c.lastPage = d.lastPage) :
    c.regionSize = d.regionSize := by
  rw [LaneConfig.regionSize, LaneConfig.regionSize, hf, hl]

/-- Where a lane is not OFF, LCFG moves neither its direction nor its pages (R48). -/
theorem mayConfigure_region {l : Lane} {en : Bool} {c : LaneConfig} (h : l.mayConfigure en c = true) (hs : l.state ≠ .off) :
    c.direction = l.config.direction ∧ c.firstPage = l.config.firstPage ∧ c.lastPage = l.config.lastPage := by
  unfold Lane.mayConfigure at h
  rw [if_neg hs] at h
  split at h
  · simp only [Bool.and_eq_true, beq_iff_eq] at h
    exact ⟨h.1.1.1, h.1.1.2, h.1.2⟩
  · simp only [Bool.and_eq_true, beq_iff_eq] at h
    rw [h.2]
    exact ⟨rfl, rfl, rfl⟩

/-- The three things an LCFG that is taken can do to a lane: enable it, disable it, or store the configuration. -/
theorem configure_cases (l : Lane) (en : Bool) (c : LaneConfig) :
    (en = true ∧ l.state = .off ∧ l.configure en c = l.enable c) ∨
      (en = false ∧ l.state = .stopped ∧ l.configure en c = l.disable c) ∨
      (¬ (en = true ∧ l.state = .off) ∧ ¬ (en = false ∧ l.state = .stopped) ∧ l.configure en c = { l with config := c }) := by
  unfold Lane.configure
  by_cases h1 : en = true ∧ l.state = .off
  · exact .inl ⟨h1.1, h1.2, by simp [h1.1, h1.2]⟩
  · by_cases h2 : en = false ∧ l.state = .stopped
    · exact .inr (.inl ⟨h2.1, h2.2, by simp [h2.1, h2.2]⟩)
    · exact .inr (.inr ⟨h1, h2, by cases en <;> simp_all⟩)

theorem configure_ringLaw {l : Lane} {en : Bool} {c : LaneConfig} (h : l.mayConfigure en c = true) (hl : l.RingLaw) :
    (l.configure en c).RingLaw := by
  rcases configure_cases l en c with ⟨-, -, e⟩ | ⟨-, -, e⟩ | ⟨-, -, e⟩ <;> rw [e, Lane.ringLaw_iff]
  · exact ⟨Lane.ring_of_empty ⟨rfl, rfl⟩ rfl, fun h => LaneState.noConfusion h⟩
  · exact ⟨Lane.ring_of_empty ⟨rfl, rfl⟩ rfl, fun _ => ⟨rfl, rfl⟩⟩
  · rw [Lane.ringLaw_iff] at hl
    obtain ⟨hr, hoff⟩ := hl
    by_cases hs : l.state = .off
    · obtain ⟨ha, hz⟩ := hoff hs
      have hw : l.writeOffset = 0 := by rw [hr.write, hz, Lane.fill, ha]; simp
      exact ⟨Lane.ring_of_empty (l := { l with config := c }) ⟨ha, hz⟩ hw, hoff⟩
    · obtain ⟨-, hf, hp⟩ := mayConfigure_region h hs
      have hsize := regionSize_congr hf hp
      refine ⟨⟨?_, ?_, ?_, ?_, hr.oldest⟩, hoff⟩ <;> simp only [hsize]
      · exact hr.fill
      · exact hr.reclaim
      · exact hr.write
      · exact hr.placed

theorem configure_stateLaw {l : Lane} {en : Bool} {c : LaneConfig} (h : l.mayConfigure en c = true) (hl : l.StateLaw) :
    (l.configure en c).StateLaw := by
  unfold Lane.StateLaw at hl ⊢
  rcases configure_cases l en c with ⟨-, -, e⟩ | ⟨-, -, e⟩ | ⟨-, -, e⟩ <;> rw [e]
  · simp only [Lane.enable]
    split <;> simp
  · simp only [Lane.disable]
    split <;> simp
  · by_cases hs : l.state = .off
    · simp only [hs]
      split <;> simp
    · simpa only [(mayConfigure_region h hs).1] using hl

theorem configure_poolLaw {l : Lane} {en : Bool} {c : LaneConfig} (h : l.mayConfigure en c = true)
    (hq : 1 ≤ c.quota ∧ c.quota ≤ 128) (hheld : l.enabled = true → l.held ≤ c.quota) (hl : l.PoolLaw) :
    (l.configure en c).PoolLaw := by
  rcases configure_cases l en c with ⟨-, -, e⟩ | ⟨-, -, e⟩ | ⟨-, -, e⟩ <;> rw [e]
  · exact ⟨hq.1, hq.2, Nat.zero_le _, fun _ => rfl, fun _ => rfl⟩
  · exact ⟨hq.1, hq.2, Nat.zero_le _, fun _ => rfl, fun _ => rfl⟩
  · obtain ⟨-, -, -, hoff, hplay⟩ := hl
    by_cases hs : l.state = .off
    · have hz := hoff hs
      have hf : l.filling = none := by
        unfold Lane.held at hz
        cases hfil : l.filling with
        | none => rfl
        | some f => simp [hfil] at hz
      have hc : ({ l with config := c } : Lane).held = 0 := hz
      exact ⟨hq.1, hq.2, hc ▸ Nat.zero_le _, hoff, fun _ => hf⟩
    · refine ⟨hq.1, hq.2, hheld (by simp [Lane.enabled, hs]), hoff, fun hd => hplay ?_⟩
      rw [← (mayConfigure_region h hs).1]
      exact hd

/-! ## A captured sample (R160 to R163) -/

/-- An overrun moves the ring, the queue, the cursor, a counter and a flag (R161). -/
theorem overrun_kept (l : Lane) : LaneKept l l.overrun := by
  refine (releaseHead_kept l).trans ⟨⟨rfl, .inl rfl, le_refl _, le_refl _, id, id, id⟩, .of_same rfl rfl rfl rfl, Iff.rfl⟩

theorem overrun_frame (l : Lane) :
    l.overrun.state = l.state ∧ l.overrun.filling = l.filling ∧ l.overrun.queue.length = l.queue.length - 1 := by
  have hf := (releaseHead_released l).frame
  refine ⟨?_, ?_, ?_⟩
  · change l.releaseHead.state = _
    rw [hf]
  · change l.releaseHead.filling = _
    rw [hf]
  · change l.releaseHead.queue.length = _
    rw [releaseHead_queue, List.length_tail]

theorem makeRoom_kept (n : Nat) (l : Lane) : LaneKept l (l.makeRoom n) := by
  induction n generalizing l with
  | zero => exact .refl l
  | succ n ih =>
    unfold Lane.makeRoom
    split
    · exact (overrun_kept l).trans (ih _)
    · exact .refl l

theorem makeRoom_frame (n : Nat) (l : Lane) : (l.makeRoom n).state = l.state ∧ (l.makeRoom n).filling = l.filling := by
  induction n generalizing l with
  | zero => exact ⟨rfl, rfl⟩
  | succ n ih =>
    obtain ⟨hs, hf, -⟩ := overrun_frame l
    unfold Lane.makeRoom
    split
    · exact ⟨(ih _).1.trans hs, (ih _).2.trans hf⟩
    · exact ⟨rfl, rfl⟩

/-- Overruns end with room and a record to spare, or with no closed frame left (R161). -/
theorem makeRoom_done (n : Nat) (l : Lane) (h : l.queue.length ≤ n) :
    (l.makeRoom n).lacksRoom = false ∨ (l.makeRoom n).queue = [] := by
  induction n generalizing l with
  | zero => exact .inr (List.length_eq_zero_iff.mp (Nat.le_zero.mp h))
  | succ n ih =>
    unfold Lane.makeRoom
    split
    · exact ih _ (by rw [(overrun_frame l).2.2]; omega)
    · rename_i hn
      simp only [Bool.and_eq_true, Bool.not_eq_true', List.isEmpty_eq_false_iff] at hn
      by_cases hq : l.queue = []
      · exact .inr hq
      · exact .inl (by simpa [hq] using hn)

/-- A capture frame begins only where its words fit (R161). -/
theorem beginFrame_cases (l : Lane) (stamp : Time) :
    l.beginFrame stamp = l.makeRoom l.queue.length ∨
      ((l.makeRoom l.queue.length).config.captureWords ≤ (l.makeRoom l.queue.length).free ∧
        l.beginFrame stamp =
          { (l.makeRoom l.queue.length).allocate (l.makeRoom l.queue.length).config.captureWords with
            filling := some ((l.makeRoom l.queue.length).newFilling stamp), discPending := false }) := by
  unfold Lane.beginFrame
  dsimp only
  split
  · exact .inl rfl
  · rename_i h
    exact .inr ⟨Nat.le_of_not_lt h, rfl⟩

/-- What a captured sample leaves alone, and how it keeps the ring and the quota. -/
structure SampleKept (l m : Lane) : Prop where
  config : m.config = l.config
  state : m.state = l.state
  ring : l.Ring → m.Ring
  held : 1 ≤ l.config.quota → l.held ≤ l.config.quota → m.held ≤ m.config.quota

theorem SampleKept.refl (l : Lane) : SampleKept l l := ⟨rfl, rfl, id, fun _ h => h⟩

theorem SampleKept.trans {l m n : Lane} (h : SampleKept l m) (k : SampleKept m n) : SampleKept l n :=
  ⟨k.config.trans h.config, k.state.trans h.state, fun r => k.ring (h.ring r), fun hq hh =>
    k.held (h.config ▸ hq) (h.held hq hh)⟩

theorem beginFrame_sampleKept (l : Lane) (stamp : Time) : SampleKept l (l.beginFrame stamp) := by
  have hk := makeRoom_kept l.queue.length l
  obtain ⟨hs, hfil⟩ := makeRoom_frame l.queue.length l
  have hc := hk.worked.config
  rcases beginFrame_cases l stamp with e | ⟨hroom, e⟩ <;> rw [e]
  · exact ⟨hc, hs, hk.ring.ring, fun _ hh => by rw [hc]; exact hk.held.trans hh⟩
  · refine ⟨hc, hs, fun hr => ?_, fun hq _ => ?_⟩
    · have placed := allocate_ring (hk.ring.ring hr) hroom
      exact ⟨placed.fill, placed.reclaim, placed.write, placed.placed, placed.oldest⟩
    · change (l.makeRoom l.queue.length).queue.length + 1 ≤ (l.makeRoom l.queue.length).config.quota
      rcases makeRoom_done l.queue.length l (le_refl _) with hr | hr
      · simp only [Lane.lacksRoom, Bool.or_eq_false_iff, decide_eq_false_iff_not] at hr
        omega
      · rw [hr, hc]
        exact hq

/-- Closing a frame moves its record from the frame being filled to the queue (R163). -/
theorem closeFrame_frame (t : Tracker) (l : Lane) (f : Filling) :
    l.closeFrame t f = { l with
      queue := l.queue ++ [closedRecord t l f], lastSeq := l.lastSeq + 1, filling := none,
      captureCounters := { l.captureCounters with closed := satInc l.captureCounters.closed },
      flags := (l.closeFrame t f).flags } := by
  unfold Lane.closeFrame
  dsimp only
  split <;> rfl

theorem writeSample_sampleKept (t : Tracker) (left right : Int) (l : Lane) (store : Memory) :
    SampleKept l (l.writeSample t left right store).1 := by
  unfold Lane.writeSample
  split
  · exact .refl l
  · rename_i hf
    dsimp only
    split
    · rw [closeFrame_frame]
      refine ⟨rfl, rfl, fun hr => ⟨hr.fill, hr.reclaim, hr.write, hr.placed, hr.oldest⟩, fun _ hh => ?_⟩
      simpa [Lane.held, hf] using hh
    · refine ⟨rfl, rfl, fun hr => ⟨hr.fill, hr.reclaim, hr.write, hr.placed, hr.oldest⟩, fun _ hh => ?_⟩
      simpa [Lane.held, hf] using hh

theorem takeSample_sampleKept (t : Tracker) (stamp : Time) (left right : Int) (l : Lane) (store : Memory) :
    SampleKept l (l.takeSample t stamp left right store).1 := by
  unfold Lane.takeSample
  split
  · refine SampleKept.trans ?_ (writeSample_sampleKept _ _ _ _ _)
    split
    · exact .refl l
    · exact beginFrame_sampleKept l stamp
  · exact .refl l

theorem SampleKept.ringLaw {l m : Lane} (h : SampleKept l m) (hs : l.isRunning = true) (hl : l.RingLaw) : m.RingLaw := by
  rw [Lane.ringLaw_iff] at hl ⊢
  refine ⟨h.ring hl.1, fun e => ?_⟩
  simp only [Lane.isRunning, Bool.and_eq_true, beq_iff_eq] at hs
  rw [h.state, hs.2] at e
  cases e

theorem SampleKept.stateLaw {l m : Lane} (h : SampleKept l m) (hl : l.StateLaw) : m.StateLaw := by
  rwa [Lane.StateLaw, h.config, h.state]

theorem SampleKept.poolLaw {l m : Lane} (h : SampleKept l m) (hs : l.isRunning = true) (hl : l.PoolLaw) : m.PoolLaw := by
  obtain ⟨hlow, hhigh, hheld, -, -⟩ := hl
  simp only [Lane.isRunning, Bool.and_eq_true, beq_iff_eq] at hs
  refine ⟨h.config ▸ hlow, h.config ▸ hhigh, h.held hlow hheld, fun e => ?_, fun hd => ?_⟩
  · rw [h.state, hs.2] at e
    cases e
  · rw [h.config, hs.1] at hd
    cases hd

theorem SampleKept.enabled {l m : Lane} (h : SampleKept l m) : m.enabled = l.enabled := by
  rw [Lane.enabled, Lane.enabled, h.state]

end Sys2Proof.Machine

/-! The sample store (R53) under the two writers of it, an admitted frame (R77) and a captured sample (R151, R162): what they write is
24-bit samples at words of the store. -/

namespace Sys2Proof.Machine

/-- A 24-bit sample (R53). -/
def IsSample (x : Int) : Prop := -8388608 ≤ x ∧ x ≤ 8388607

/-- The law of the store, on the store itself (R53). -/
def Memory.Sound (m : Memory) : Prop := m.wf = true ∧ m.InStore

/-- A sample's word reads as the sample (R53). -/
theorem sampleWord_toInt {x : Int} (h : IsSample x) : (sampleWord x).toInt = x := by
  obtain ⟨hlow, hhigh⟩ := h
  rw [sampleWord, BitVec.toInt_ofInt, Int.bmod_eq_of_le] <;> norm_num <;> omega

/-- Writing samples keeps the store sound. -/
theorem writeSamples_sound (c : LaneConfig) (o : Nat) (xs : List Int) (m : Memory) (hx : ∀ x ∈ xs, IsSample x)
    (h : m.Sound) : (writeSamples c o xs m).Sound := by
  induction xs generalizing o m with
  | nil => exact h
  | cons x rest ih =>
    obtain ⟨hx0, hrest⟩ := List.forall_mem_cons.mp hx
    have hw : IsSample (sampleWord x).toInt := by rw [sampleWord_toInt hx0]; exact hx0
    exact ih _ _ hrest ⟨Memory.wf_write _ _ h.1, Memory.inStore_write h.2 (c.wordAt_lt o) hw⟩

theorem expand16_samples : ∀ p : List Byte, ∀ x ∈ expand16 p, IsSample x
  | [] => by simp [expand16]
  | [_] => by simp [expand16]
  | a :: b :: rest => by
    intro x hx
    rcases List.mem_cons.mp hx with rfl | hx
    · have hlow := BitVec.le_toInt (x := a ++ b)
      have hhigh := BitVec.toInt_lt (x := a ++ b)
      constructor <;> omega
    · exact expand16_samples rest x hx

theorem expand24_samples : ∀ p : List Byte, ∀ x ∈ expand24 p, IsSample x
  | [] => by simp [expand24]
  | [_] => by simp [expand24]
  | [_, _] => by simp [expand24]
  | a :: b :: c :: rest => by
    intro x hx
    rcases List.mem_cons.mp hx with rfl | hx
    · have hlow := BitVec.le_toInt (x := a ++ (b ++ c))
      have hhigh := BitVec.toInt_lt (x := a ++ (b ++ c))
      constructor <;> omega
    · exact expand24_samples rest x hx

/-- The samples an LFRAME carries (R77). -/
theorem frameSamples_samples (r : LframeReq) : ∀ x ∈ frameSamples r, IsSample x := by
  unfold frameSamples
  split
  · exact expand16_samples _
  · exact expand24_samples _
  · simp

/-- The value of a slot (R151). -/
theorem slotValue_sample (w : Width) (bits : List Bool) : IsSample (slotValue w bits) := by
  cases w with
  | w16 =>
    have hlow := BitVec.le_toInt (x := BitVec.ofNat 16 (bitsValue 16 bits))
    have hhigh := BitVec.toInt_lt (x := BitVec.ofNat 16 (bitsValue 16 bits))
    constructor <;> simp only [slotValue] <;> omega
  | w24 =>
    have hlow := BitVec.le_toInt (x := BitVec.ofNat 24 (bitsValue 24 bits))
    have hhigh := BitVec.toInt_lt (x := BitVec.ofNat 24 (bitsValue 24 bits))
    constructor <;> simp only [slotValue] <;> omega

/-- A captured sample's store (R160, R162). -/
theorem takeSample_sound (t : Tracker) (stamp : Time) (a : Assembly) (l : Lane) (m : Memory) (h : m.Sound) :
    (l.takeSample t stamp a.values.1 a.values.2 m).2.Sound := by
  have taken : ∀ (c : LaneConfig), ∀ x ∈ c.taken a.values.1 a.values.2, IsSample x := by
    intro c x hx
    unfold LaneConfig.taken at hx
    split at hx <;> simp only [List.mem_cons, List.not_mem_nil, or_false] at hx
    · exact hx ▸ slotValue_sample _ _
    · rcases hx with rfl | rfl <;> exact slotValue_sample _ _
  have written : ∀ l : Lane, (l.writeSample t a.values.1 a.values.2 m).2.Sound := by
    intro l
    unfold Lane.writeSample
    split
    · exact h
    · dsimp only
      split <;> exact writeSamples_sound _ _ _ _ (taken _) h
  unfold Lane.takeSample
  split
  · exact written _
  · exact h

end Sys2Proof.Machine

/-! The laws of the whole part (R9, R20, R53 to R56, R70, R184, R195) under each block's own work: what every owner of a request, every
timer and every event leaves of them. -/

namespace Sys2Proof.Machine

/-! ## The capture queue (R9) -/

theorem risingTimes_tail : ∀ q : List Capture, risingTimes q → risingTimes q.tail
  | [], _ => trivial
  | [_], _ => trivial
  | _ :: _ :: _, h => h.2

theorem risingTimes_drop (n : Nat) (q : List Capture) (h : risingTimes q) : risingTimes (q.drop n) := by
  induction n generalizing q with
  | zero => exact h
  | succ n ih =>
    rw [← List.drop_tail]
    exact ih _ (risingTimes_tail q h)

/-- An entry later than the newest keeps the times rising (R9). -/
theorem risingTimes_append (e : Capture) : ∀ q : List Capture, risingTimes q →
    (∀ newest, q.getLast? = some newest → 0 < (e.time - newest.time).toInt) → risingTimes (q ++ [e])
  | [], _, _ => trivial
  | [a], _, h => ⟨h a rfl, trivial⟩
  | _ :: b :: rest, hq, h =>
    ⟨hq.1, risingTimes_append e (b :: rest) hq.2 fun newest hn => h newest (by rw [List.getLast?_cons_cons, hn])⟩

/-- The entries behind a named one are a newest part of the queue (R12). -/
theorem takeCapture_drop (seq : Byte) (q : List Capture) (e : Capture) (rest : List Capture)
    (h : takeCapture seq q = some (e, rest)) : ∃ n, rest = q.drop n := by
  induction q with
  | nil => cases h
  | cons a q ih =>
    unfold takeCapture at h
    split at h
    · cases h
      exact ⟨1, rfl⟩
    · obtain ⟨n, rfl⟩ := ih h
      exact ⟨n + 1, rfl⟩

/-! ## The laws together -/

/-- What a part of a step keeps: every law but the link's queues'. -/
structure LawsKept (s t : State) : Prop where
  store : s.StoreLaw → t.StoreLaw
  capture : s.CaptureLaw → t.CaptureLaw
  rate : s.RateLaw → t.RateLaw
  flags : s.FlagLaw → t.FlagLaw
  ring : s.RingLaw → t.RingLaw
  state : s.StateLaw → t.StateLaw
  pool : s.PoolLaw → t.PoolLaw

theorem LawsKept.trans {s t u : State} (h : LawsKept s t) (k : LawsKept t u) : LawsKept s u :=
  ⟨fun e => k.store (h.store e), fun e => k.capture (h.capture e), fun e => k.rate (h.rate e), fun e => k.flags (h.flags e),
    fun e => k.ring (h.ring e), fun e => k.state (h.state e), fun e => k.pool (h.pool e)⟩

/-- A sum over the members that a test names. -/
theorem sum_map_filter {α : Type} (p : α → Bool) (f : α → Nat) (xs : List α) :
    ((xs.filter p).map f).sum = (xs.map fun x => if p x then f x else 0).sum := by
  induction xs with
  | nil => rfl
  | cons x rest ih => cases hx : p x <;> simp [hx, ih]

/-- What the enabled lanes' quotas sum to, lane by lane (R70). -/
theorem quotaSum_eq (s : State) :
    s.quotaSum = (LaneId.list.map fun i => if (s.lanes.get i).enabled then (s.lanes.get i).config.quota else 0).sum :=
  sum_map_filter _ _ _

theorem quotaSum_congr {s t : State} (he : ∀ i, (t.lanes.get i).enabled = (s.lanes.get i).enabled)
    (hq : ∀ i, (t.lanes.get i).config.quota = (s.lanes.get i).config.quota) : t.quotaSum = s.quotaSum := by
  simp only [quotaSum_eq, he, hq]

/-- Lanes that are kept one by one keep the lanes' laws. -/
theorem LawsKept.of_lanes {s t : State} (hl : ∀ i, LaneKept (s.lanes.get i) (t.lanes.get i))
    (store : t.store = s.store := by rfl) (queue : t.strobe.queue = s.strobe.queue := by rfl)
    (rate : t.tracker.q = s.tracker.q := by rfl) (portFlags : t.link.portFlags = s.link.portFlags := by rfl)
    (enables : t.link.enables = s.link.enables := by rfl) : LawsKept s t where
  store h := by rwa [State.StoreLaw, store]
  capture h := by rwa [State.CaptureLaw, queue]
  rate h := by rwa [State.RateLaw, rate]
  flags h := by rwa [State.FlagLaw, portFlags, enables]
  ring h i := (hl i).ringLaw (h i)
  state h i := (hl i).worked.state (h i)
  pool h := ⟨fun i => (hl i).poolLaw (h.1 i),
    (quotaSum_congr (fun i => (hl i).enabled) (fun i => by rw [(hl i).worked.config])).trans_le h.2⟩

/-- Work outside the lanes, the store, the captures, the rate correction and the flags. -/
theorem LawsKept.of_same {s t : State} (lanes : t.lanes = s.lanes := by rfl)
    (store : t.store = s.store := by rfl) (queue : t.strobe.queue = s.strobe.queue := by rfl)
    (rate : t.tracker.q = s.tracker.q := by rfl) (portFlags : t.link.portFlags = s.link.portFlags := by rfl)
    (enables : t.link.enables = s.link.enables := by rfl) : LawsKept s t :=
  .of_lanes (fun i => by rw [lanes]; exact .refl _) store queue rate portFlags enables

theorem LawsKept.refl (s : State) : LawsKept s s := .of_same

/-- One lane that is kept. -/
theorem setLane_lawsKept {s : State} {i : LaneId} {l : Lane} (h : LaneKept (s.lanes.get i) l) : LawsKept s (s.setLane i l) := by
  refine .of_lanes fun j => ?_
  by_cases hj : j = i
  · subst hj
    simpa using h
  · simpa [LaneMap.get_set_other _ _ hj] using LaneKept.refl _

/-- Raising a flag of the port group (R193): each has a position that holds a flag. -/
theorem raisePort_lawsKept (s : State) (f : PortFlag) : LawsKept s (s.raisePort f) := by
  have same : LawsKept s { s.raisePort f with link := s.link } := .of_same
  refine ⟨same.store, same.capture, same.rate, fun ⟨hp, he⟩ => ⟨?_, he⟩, same.ring, same.state, same.pool⟩
  have hb : bitMask f.bit &&& 0x1F = 0 := by cases f <;> decide
  change (s.link.portFlags ||| bitMask f.bit) &&& 0x1F = 0
  rw [BitVec.and_comm, BitVec.and_or_distrib_left, BitVec.and_comm 0x1F, BitVec.and_comm 0x1F, hp, hb]
  rfl

end Sys2Proof.Machine

/-! What the owner of each request keeps (R189): the laws of the part, and the link's own queues, to which the answer is then posted. -/

namespace Sys2Proof.Machine

/-- An owner's work keeps the laws, and leaves the link's queues and its transaction alone. -/
structure OwnerKept (s t : State) : Prop extends LawsKept s t where
  inbound : t.link.inbound = s.link.inbound
  outbound : t.link.outbound = s.link.outbound
  transaction : t.link.transaction = s.link.transaction

theorem OwnerKept.refl (s : State) : OwnerKept s s := ⟨.refl s, rfl, rfl, rfl⟩

theorem OwnerKept.trans {s t u : State} (h : OwnerKept s t) (k : OwnerKept t u) : OwnerKept s u :=
  ⟨h.toLawsKept.trans k.toLawsKept, k.inbound.trans h.inbound, k.outbound.trans h.outbound, k.transaction.trans h.transaction⟩

theorem setLane_ownerKept {s : State} {i : LaneId} {l : Lane} (h : LaneKept (s.lanes.get i) l) : OwnerKept s (s.setLane i l) :=
  ⟨setLane_lawsKept h, rfl, rfl, rfl⟩

/-! ## Strobe capture (R14 to R16) -/

theorem strobeOwner_kept (r : TstrobeReq) (s : State) : OwnerKept s (strobeOwner r s).1 := by
  unfold strobeOwner
  split
  · exact .refl s
  · exact ⟨.of_same, rfl, rfl, rfl⟩

/-- The newest part of a capture queue within its law is within it. -/
theorem dropCaptures_kept (s : State) (n : Nat) :
    OwnerKept s { s with strobe := { s.strobe with queue := s.strobe.queue.drop n } } := by
  have same : LawsKept s { s with strobe := s.strobe } := .refl s
  refine ⟨⟨same.store, fun ⟨hlen, hrise⟩ => ⟨?_, risingTimes_drop n _ hrise⟩, same.rate, same.flags, same.ring, same.state,
    same.pool⟩, rfl, rfl, rfl⟩
  simp only [List.length_drop]
  omega

theorem capsOwner_kept (n : Byte) (s : State) : OwnerKept s (capsOwner n s).1 := by
  by_cases h : n.toNat ≤ 16
  · rw [capsOwner_of_le h]
    exact dropCaptures_kept s _
  · rw [capsOwner_of_gt (Nat.lt_of_not_le h)]
    exact .refl s

/-- An append of an entry that passes the order test (R9 to R11). -/
theorem appendCapture_kept {s : State} {t : Time} (o : Origin) (h : s.strobe.ordered t = true) :
    OwnerKept s (s.appendCapture t o) := by
  have same : LawsKept s { s.appendCapture t o with strobe := s.strobe } := by
    unfold State.appendCapture
    dsimp only
    split <;> exact .of_same
  have link : (s.appendCapture t o).link.inbound = s.link.inbound ∧ (s.appendCapture t o).link.outbound = s.link.outbound ∧
      (s.appendCapture t o).link.transaction = s.link.transaction := by
    unfold State.appendCapture
    dsimp only
    split <;> exact ⟨rfl, rfl, rfl⟩
  refine ⟨⟨same.store, fun ⟨hlen, hrise⟩ => ?_, same.rate, same.flags, same.ring, same.state, same.pool⟩, link.1, link.2.1,
    link.2.2⟩
  rw [StrobeCapture.ordered_iff] at h
  rw [State.CaptureLaw, State.appendCapture_eq hlen]
  refine ⟨?_, risingTimes_append _ _ ?_ fun newest hn => h newest ?_⟩
  · dsimp only
    split <;> simp only [List.length_append, List.length_tail, List.length_singleton] <;> omega
  · split
    · exact risingTimes_tail _ hrise
    · exact hrise
  · split at hn
    · rename_i hfull
      simpa [List.getLast?_tail, hfull] using hn
    · exact hn

theorem injectOwner_kept (s : State) : OwnerKept s (injectOwner s).1 := by
  by_cases h : s.strobe.ordered s.count = true
  · rw [injectOwner_of_ordered h]
    exact appendCapture_kept _ h
  · rw [injectOwner_of_not_ordered h]
    exact .refl s

/-! ## The tracker (R21 to R41) -/

/-- A tracker record whose rate correction is within its limit (R20). -/
def RateWithin (t : Tracker) : Prop := -858993 ≤ t.q ∧ t.q ≤ 858993

theorem clampRate_within (q : Int) : -858993 ≤ clampRate q ∧ clampRate q ≤ 858993 := by
  simp only [clampRate, clampInt, Config.rateLimit]
  omega

/-- A tracker record put in place of another. -/
theorem setTracker_kept {s : State} {t : Tracker} (h : RateWithin s.tracker → RateWithin t) : OwnerKept s (s.setTracker t) := by
  have same : LawsKept s { s.setTracker t with tracker := s.tracker } := .of_same
  exact ⟨⟨same.store, same.capture, h, same.flags, same.ring, same.state, same.pool⟩, rfl, rfl, rfl⟩

theorem raiseAll_kept (s : State) (fs : List TrackerFlag) : OwnerKept s (s.raiseAll fs) := by
  induction fs generalizing s with
  | nil => exact .refl s
  | cons f rest ih =>
    have raised : OwnerKept s (s.raiseTracker f) := ⟨.of_same, rfl, rfl, rfl⟩
    exact raised.trans (ih _)

theorem purge_ownerKept (s : State) : OwnerKept s s.purge :=
  ⟨.of_lanes fun i => by simpa using purge_kept _ _ _, rfl, rfl, rfl⟩

theorem purgeIf_kept (s : State) (p : Bool) : OwnerKept s (s.purgeIf p) := by
  cases p with
  | false => exact .refl s
  | true => exact purge_ownerKept s

theorem setOwner_kept (r : TsetReq) (s : State) : OwnerKept s (setOwner r s).1 := setTracker_kept id

theorem toRole_rate (t : Tracker) (role : Role) (epoch : Byte) (now : Time) (h : RateWithin t) :
    RateWithin (t.toRole role epoch now) := by
  unfold Tracker.toRole
  split
  · exact ⟨by simp, by simp⟩
  · exact h
  · exact h
  · exact h

theorem roleOwner_kept (r : TroleReq) (s : State) : OwnerKept s (roleOwner r s).1 := by
  unfold roleOwner
  split
  · exact .refl s
  · exact ((setTracker_kept (toRole_rate _ _ _ _)).trans (raiseAll_kept _ _)).trans (purgeIf_kept _ _)

/-- The tracker record that the epoch step goes on with. -/
def EpochStep.tracker : EpochStep → Tracker
  | .goOn t _ _ => t
  | .commit t => t
  | .pending t => t

theorem epochStep_rate (t : Tracker) (epoch : Byte) : (t.epochStep epoch).tracker.q = t.q := by
  unfold Tracker.epochStep
  split
  · split <;> rfl
  · split
    · rfl
    · split
      · rfl
      · split <;> rfl

theorem acquire_rate (t : Tracker) (l h : Time) (d : Int) (hr : RateWithin t) : RateWithin (t.acquire l h d).tracker := by
  unfold Tracker.acquire
  dsimp only
  split
  · split <;> exact clampRate_within _
  · exact hr

theorem track_rate (t : Tracker) (l h : Time) (d : Int) (hr : RateWithin t) : RateWithin (t.track l h d).tracker := by
  unfold Tracker.track
  dsimp only
  split
  · exact clampRate_within _
  · split <;> exact hr

theorem takePair_rate (t : Tracker) (l h : Time) (hr : RateWithin t) (r : PairResult) (e : t.takePair l h = some r) :
    RateWithin r.tracker := by
  unfold Tracker.takePair at e
  dsimp only at e
  split at e
  · cases e; exact hr
  · cases e; exact hr
  · split at e
    · cases e; exact hr
    · split at e <;> cases e
      exact acquire_rate _ _ _ _ hr
  · split at e <;> cases e
    exact track_rate _ _ _ _ hr
  · split at e <;> cases e
    exact track_rate _ _ _ _ hr
  · cases e

/-- A record put in place after work that keeps the tracker: the rate correction of the one before bounds the new one's. -/
theorem setTracker_after {s t : State} {u : Tracker} (h : OwnerKept s t) (hu : RateWithin s.tracker → RateWithin u) :
    OwnerKept s (t.setTracker u) := by
  have same : OwnerKept s { t.setTracker u with tracker := t.tracker } := h
  exact ⟨⟨same.store, same.capture, hu, same.flags, same.ring, same.state, same.pool⟩, same.inbound, same.outbound,
    same.transaction⟩

theorem pair_kept (s : State) (l : Time) (epoch : Byte) (h : Time) : OwnerKept s (s.pair l epoch h).1 := by
  have step : RateWithin s.tracker → RateWithin (s.tracker.epochStep epoch).tracker := fun h => by
    rwa [RateWithin, epochStep_rate]
  unfold State.pair State.afterPair
  split
  · rename_i t e
    rw [e] at step
    exact (setTracker_kept step).trans (purge_ownerKept _)
  · rename_i t e
    rw [e] at step
    have committed : OwnerKept s ((s.setTracker t).raiseTracker .epoch).purge :=
      ((setTracker_kept step).trans (raiseAll_kept _ [.epoch])).trans (purge_ownerKept _)
    exact (setTracker_after (u := t.stepTo l h) committed step).trans (raiseAll_kept _ _)
  · rename_i t p changed e
    rw [e] at step
    have went : OwnerKept s (((s.setTracker t).raiseAll (if changed then [.epoch] else [])).purgeIf p) :=
      ((setTracker_kept step).trans (raiseAll_kept _ _)).trans (purgeIf_kept _ _)
    dsimp only
    split
    · exact setTracker_after went step
    · rename_i r er
      exact (setTracker_after went fun hr => takePair_rate t _ _ (step hr) r er).trans (raiseAll_kept _ _)

theorem syncOwner_kept (r : TsyncReq) (s : State) : OwnerKept s (syncOwner r s).1 := by
  unfold syncOwner
  split
  · exact .refl s
  · split
    · exact .refl s
    · rename_i e rest he
      obtain ⟨n, rfl⟩ := takeCapture_drop _ _ _ _ he
      exact (dropCaptures_kept s n).trans (pair_kept _ _ _ _)

/-! ## Lanes (R47 to R77, R85, R86, R165) -/

/-- A lane put in place whose laws follow from those of the one before. -/
theorem setLane_laws {s : State} {i : LaneId} {l : Lane} (ring : (s.lanes.get i).RingLaw → l.RingLaw)
    (state : (s.lanes.get i).StateLaw → l.StateLaw) (pool : (s.lanes.get i).PoolLaw → l.PoolLaw)
    (sum : s.PoolLaw → (s.setLane i l).quotaSum ≤ 128) : LawsKept s (s.setLane i l) := by
  have other : ∀ j, j = i ∨ (s.setLane i l).lanes.get j = s.lanes.get j := by
    intro j
    by_cases hj : j = i
    · exact .inl hj
    · exact .inr (by simp [LaneMap.get_set_other _ _ hj])
  refine ⟨id, id, id, id, fun h j => ?_, fun h j => ?_, fun h => ⟨fun j => ?_, sum h⟩⟩
  all_goals rcases other j with rfl | e
  · simpa using ring (h j)
  · rw [e]; exact h j
  · simpa using state (h j)
  · rw [e]; exact h j
  · simpa using pool (h.1 j)
  · rw [e]; exact h.1 j

/-- A lane put in place with the enable and the quota of the one before leaves the sum of the quotas. -/
theorem quotaSum_setLane {s : State} {i : LaneId} {l : Lane} (he : l.enabled = (s.lanes.get i).enabled)
    (hq : l.config.quota = (s.lanes.get i).config.quota) : (s.setLane i l).quotaSum = s.quotaSum := by
  refine quotaSum_congr (fun j => ?_) (fun j => ?_)
  all_goals
    by_cases hj : j = i
    · subst hj
      simp [he, hq]
    · simp [LaneMap.get_set_other _ _ hj]

/-- A sum over the six lanes, one lane apart from the others. -/
theorem laneSum_split (i : LaneId) (f g : LaneId → Nat) (h : ∀ j, j ≠ i → g j = f j) :
    (LaneId.list.map g).sum = g i + (LaneId.list.map fun j => if j = i then 0 else f j).sum := by
  have others : LaneId.list.map (fun j => if j = i then 0 else f j) = LaneId.list.map fun j => if j = i then 0 else g j :=
    List.map_congr_left fun j _ => by by_cases hj : j = i <;> simp [hj, h]
  rw [others]
  cases i <;> simp [LaneId.list] <;> omega

/-- The sum of the quotas, one lane apart from the other enabled ones (R47, check 5). -/
theorem quotaSum_setLane_other (s : State) (i : LaneId) (l : Lane) :
    (s.setLane i l).quotaSum =
      (if l.enabled then l.config.quota else 0) + ((s.otherEnabled i).map (fun o => o.config.quota)).sum := by
  rw [quotaSum_eq, laneSum_split i fun j => if (s.lanes.get j).enabled then (s.lanes.get j).config.quota else 0]
  · simp only [State.otherEnabled, List.map_map, sum_map_filter, State.setLane_lanes, LaneMap.get_set_same]
    congr 2
    refine List.map_congr_left fun j _ => ?_
    by_cases hj : j = i <;> simp [hj]
  · intro j hj
    simp [LaneMap.get_set_other _ _ hj]

theorem carriedConfig_quota {r : LcfgReq} {en : Bool} {c : LaneConfig} (h : carriedConfig r = some (en, c)) :
    1 ≤ c.quota ∧ c.quota ≤ 128 := by
  unfold carriedConfig at h
  split at h
  · split at h
    · rename_i hc
      simp only [Bool.and_eq_true, decide_eq_true_eq] at hc
      cases h
      exact ⟨hc.1.1.2, hc.1.2⟩
    · cases h
  · cases h

/-- What an LCFG that passes its checks has passed (R47, checks 2, 5 and 6). -/
theorem configRefusal_none {s : State} {i : LaneId} {en : Bool} {c : LaneConfig} (h : s.configRefusal i en c = none) :
    (s.lanes.get i).mayConfigure en c = true ∧
      (((en = true ∧ (s.lanes.get i).state = .off) ∨ (s.lanes.get i).enabled = true) →
        c.quota + ((s.otherEnabled i).map (fun o => o.config.quota)).sum ≤ 128) ∧
      ((s.lanes.get i).enabled = true → (s.lanes.get i).held ≤ c.quota) := by
  simp only [State.configRefusal, check_none, Bool.not_eq_true', Bool.not_eq_false, Bool.and_eq_true, Bool.or_eq_true,
    decide_eq_true_eq, beq_iff_eq, not_and, not_lt] at h
  exact ⟨h.1, h.2.2.2.1, h.2.2.2.2.1⟩

theorem configOwner_kept (r : LcfgReq) (s : State) : OwnerKept s (configOwner r s).1 := by
  unfold configOwner
  split
  · rename_i i en raw _ hcar
    dsimp only
    split
    · exact .refl s
    · rename_i hnone
      obtain ⟨may, fits, holds⟩ := configRefusal_none hnone
      have hq : 1 ≤ raw.clamp.quota ∧ raw.clamp.quota ≤ 128 := carriedConfig_quota (c := raw) hcar
      refine ⟨setLane_laws (configure_ringLaw may) (configure_stateLaw may) (configure_poolLaw may hq holds) fun hp => ?_,
        rfl, rfl, rfl⟩
      rw [quotaSum_setLane_other]
      have others : ((s.otherEnabled i).map (fun o => o.config.quota)).sum ≤ 128 := by
        have hsum := hp.2
        have hsame := quotaSum_setLane (s := s) (i := i) (l := s.lanes.get i) rfl rfl
        rw [quotaSum_setLane_other] at hsame
        omega
      rcases configure_cases (s.lanes.get i) en raw.clamp with ⟨hen, hoff, e⟩ | ⟨-, -, e⟩ | ⟨hn, hs, e⟩ <;> rw [e]
      · exact fits (.inl ⟨hen, hoff⟩)
      · have hen : ((s.lanes.get i).disable raw.clamp).enabled = false := rfl
        rwa [hen, if_neg Bool.false_ne_true, Nat.zero_add]
      · by_cases he : (s.lanes.get i).enabled = true
        · have hen : ({ s.lanes.get i with config := raw.clamp } : Lane).enabled = true := he
          rw [if_pos hen]
          exact fits (.inr he)
        · have hen : ¬ ({ s.lanes.get i with config := raw.clamp } : Lane).enabled = true := he
          rwa [if_neg hen, Nat.zero_add]
  · exact .refl s

/-- A check that refuses with no effect, before work that is kept. -/
theorem OwnerKept.check {s : State} {c : Prop} [Decidable c] {p : List Byte} {r : State × List Byte} (h : OwnerKept s r.1) :
    OwnerKept s (if c then (s, p) else r).1 := by
  by_cases hc : c
  · rw [if_pos hc]
    exact .refl s
  · rwa [if_neg hc]

theorem bindOwner_kept (r : LbindReq) (s : State) : OwnerKept s (bindOwner r s).1 := by
  unfold bindOwner
  split
  · refine .check (.check (.check ?_))
    split
    · exact setLane_ownerKept (((setSwitch_kept _ _).trans (settleSwitch_kept _ _ _)).trans (watermark_kept _ _))
    · split
      · exact setLane_ownerKept ((bindNow_kept _ _).trans (watermark_kept _ _))
      · exact .refl s
  · exact .refl s

theorem laneOfStream_isPlay {s : State} {st : StreamId} {i : LaneId} (h : s.laneOfStream st = some i) :
    (s.lanes.get i).isPlay = true := by
  have := List.find?_some h
  simp only [Bool.and_eq_true] at this
  exact this.1

theorem takeFrame_enabled (l : Lane) (r : LframeReq) :
    (l.takeFrame r).enabled = l.enabled ∧ (l.takeFrame r).config = l.config ∧ (l.takeFrame r).state = l.state := by
  rw [takeFrame_eq]
  exact ⟨rfl, rfl, rfl⟩

theorem frameOwner_kept (r : LframeReq) (s : State) : OwnerKept s (frameOwner r s).1 := by
  unfold frameOwner
  split
  · exact .refl s
  · split
    · exact .refl s
    · split
      · exact .refl s
      · rename_i i hi
        split
        · exact .refl s
        · have committed := commitForFrame_kept s (s.lanes.get i)
          dsimp only
          split
          · exact setLane_ownerKept committed
          · rename_i hadm
            obtain ⟨hq, hroom⟩ := admission_none hadm
            obtain ⟨he, hc, hs⟩ := takeFrame_enabled (s.commitForFrame (s.lanes.get i)) r
            have hplay := laneOfStream_isPlay hi
            have hplay' : (s.commitForFrame (s.lanes.get i)).isPlay = true := by
              rwa [Lane.isPlay, committed.enabled, committed.worked.config]
            have hoff : (s.commitForFrame (s.lanes.get i)).state ≠ .off := by
              simp only [Lane.isPlay, Lane.enabled, Bool.and_eq_true, bne_iff_ne] at hplay'
              exact hplay'.1
            have lanes : LawsKept s (s.setLane i ((s.commitForFrame (s.lanes.get i)).takeFrame r)) := by
              refine setLane_laws (fun h => takeFrame_ringLaw hoff hroom (committed.ringLaw h)) (fun h => ?_)
                (fun h => takeFrame_poolLaw hplay' hq (committed.poolLaw h)) (fun h => ?_)
              · have := committed.worked.state h
                rwa [Lane.StateLaw, hc, hs]
              · rw [quotaSum_setLane (he.trans committed.enabled) (by rw [hc, committed.worked.config])]
                exact h.2
            exact ⟨⟨fun h => writeSamples_sound _ _ _ _ (frameSamples_samples r) h, lanes.capture, lanes.rate, lanes.flags,
              lanes.ring, lanes.state, lanes.pool⟩, rfl, rfl, rfl⟩

/-- SPC's clock watch is in no law. -/
theorem setLaneWatched_kept {s : State} {i : LaneId} {l : Lane} (entered : Bool) (h : LaneKept (s.lanes.get i) l) :
    OwnerKept s (s.setLaneWatched i l entered) := by
  unfold State.setLaneWatched
  split
  · exact setLane_ownerKept h
  · exact (setLane_ownerKept h).trans ⟨.of_same, rfl, rfl, rfl⟩

theorem goOwner_kept (n : Byte) (s : State) : OwnerKept s (goOwner n s).1 := by
  unfold goOwner
  split
  · exact .refl s
  · split
    · exact .refl s
    · rename_i h
      exact setLaneWatched_kept true (go_kept h)

theorem haltOwner_kept (r : LhaltReq) (s : State) : OwnerKept s (haltOwner r s).1 := by
  unfold haltOwner
  split
  · split
    · exact .refl s
    · rename_i h
      exact setLaneWatched_kept false ((halting_kept h).trans (watermark_kept _ _))
  · exact .refl s

theorem statOwner_kept (n : Byte) (s : State) : OwnerKept s (statOwner n s).1 := by
  unfold statOwner
  split <;> exact .refl s

theorem fetchOwner_kept (n : Byte) (s : State) : OwnerKept s (fetchOwner n s).1 := by
  unfold fetchOwner
  split
  · exact .refl s
  · dsimp only
    split
    · exact .refl s
    · split
      · exact .refl s
      · exact setLane_ownerKept (releaseHead_kept _)

/-! ## Mixer, ports, cues and lines (R131 to R183) -/

theorem gainOwner_kept (r : MgainReq) (s : State) : OwnerKept s (gainOwner r s).1 := by
  unfold gainOwner
  split
  · exact ⟨.of_same, rfl, rfl, rfl⟩
  · exact .refl s

theorem duckOwner_kept (r : MduckReq) (s : State) : OwnerKept s (duckOwner r s).1 := by
  unfold duckOwner
  split
  · exact .refl s
  · exact ⟨.of_same, rfl, rfl, rfl⟩

theorem configOutPort_kept (r : PcfgReq) (f : PortFormat) (p : OutPort) (s : State) :
    OwnerKept s (configOutPort r f p s).1 := by
  unfold configOutPort
  split
  · exact .refl s
  · exact ⟨.of_same, rfl, rfl, rfl⟩

theorem configInPort_kept (r : PcfgReq) (f : PortFormat) (s : State) : OwnerKept s (configInPort r f s).1 := by
  unfold configInPort
  split
  · exact .refl s
  · split
    · exact .refl s
    · exact ⟨.of_same, rfl, rfl, rfl⟩

theorem portOwner_kept (r : PcfgReq) (s : State) : OwnerKept s (portOwner r s).1 := by
  unfold portOwner
  split
  · exact .refl s
  · split
    · exact configOutPort_kept r _ _ s
    · split
      · exact configInPort_kept r _ s
      · exact .refl s

theorem cueSetOwner_kept (r : CsetReq) (s : State) : OwnerKept s (cueSetOwner r s).1 := by
  unfold cueSetOwner
  split
  · exact .refl s
  · dsimp only
    split
    · exact .refl s
    · split
      · exact .refl s
      · exact ⟨.of_same, rfl, rfl, rfl⟩

theorem cueRunOwner_kept (r : CrunReq) (s : State) : OwnerKept s (cueRunOwner r s).1 := by
  unfold cueRunOwner
  split
  · exact .refl s
  · split
    · exact .refl s
    · split
      · exact .refl s
      · exact ⟨.of_same, rfl, rfl, rfl⟩

theorem lineOwner_kept (r : GsetReq) (s : State) : OwnerKept s (lineOwner r s).1 := by
  unfold lineOwner
  split
  · exact ⟨.of_same, rfl, rfl, rfl⟩
  · exact .refl s

theorem linesOwner_kept (s : State) : OwnerKept s (linesOwner s).1 := ⟨.of_same, rfl, rfl, rfl⟩

/-! ## Event flags (R195, R196) -/

theorem clearFlags_kept (s : State) (mask : FlagWord) : OwnerKept s (s.clearFlags mask) := by
  have same : LawsKept s { s.clearFlags mask with link := s.link } :=
    .of_lanes fun i => by simpa [State.clearFlags] using LaneKept.of_marks (s.lanes.get i) (s.lanes.get i).actions _
  refine ⟨⟨same.store, same.capture, same.rate, fun ⟨hp, he⟩ => ⟨?_, he⟩, same.ring, same.state, same.pool⟩, rfl, rfl, rfl⟩
  change s.link.portFlags &&& ~~~ (flagByte mask 7) &&& 0x1F = 0
  rw [BitVec.and_assoc, BitVec.and_comm (~~~ _), ← BitVec.and_assoc, hp]
  exact BitVec.zero_and

theorem clearOwner_kept (mask : FlagWord) (s : State) : OwnerKept s (clearOwner mask s).1 := by
  unfold clearOwner
  split
  · exact .refl s
  · exact clearFlags_kept s mask

theorem maskOwner_kept (enables : FlagWord) (s : State) : OwnerKept s (maskOwner enables s).1 := by
  unfold maskOwner
  split
  · exact .refl s
  · rename_i h
    have same : LawsKept s { s with link := s.link } := .refl s
    refine ⟨⟨same.store, same.capture, same.rate, fun ⟨hp, _⟩ => ⟨hp, ?_⟩, same.ring, same.state, same.pool⟩, rfl, rfl, rfl⟩
    simpa [namesNoFlag] using h

end Sys2Proof.Machine

/-! Every step keeps the laws (R9, R20, R46, R53 to R56, R70, R184, R187, R195, R196): what a request, a timer and an event of the part
leave of them, and what an idle step does. -/

namespace Sys2Proof.Machine

/-- What a command keeps: every law. -/
structure StepKept (s t : State) : Prop extends LawsKept s t where
  link : s.LinkLaw → t.LinkLaw

theorem OwnerKept.step {s t : State} (h : OwnerKept s t) : StepKept s t :=
  ⟨h.toLawsKept, fun hl => by rwa [State.LinkLaw, h.inbound, h.outbound, h.transaction]⟩

theorem StepKept.refl (s : State) : StepKept s s := (OwnerKept.refl s).step

theorem StepKept.trans {s t u : State} (h : StepKept s t) (k : StepKept t u) : StepKept s u :=
  ⟨h.toLawsKept.trans k.toLawsKept, fun e => k.link (h.link e)⟩

/-! ## The link (R184 to R190) -/

/-- A request waits only in a slot that no transaction is promised (R187; log 4). -/
theorem stall_kept (s : State) (raw : RawRequest) : StepKept s (s.stall raw) := by
  rcases stall_cases s raw with e | ⟨hroom, e⟩ <;> rw [e]
  · exact .refl s
  · refine ⟨.of_same, fun ⟨_, hout, _⟩ => ⟨?_, hout, fun t ht hopen => ?_⟩⟩
    · simp only [List.length_append, List.length_singleton]
      omega
    · have hpromise : s.promisedSlots = 1 := by simp [State.promisedSlots, show s.link.transaction = some t from ht, hopen]
      simp only [List.length_append, List.length_singleton]
      omega

/-- An answer posted to a queue with a place (R184, R189). -/
theorem postAnswer_kept {s : State} (a : Answer) (h : s.link.outbound.length < 8) : StepKept s (s.postAnswer a) := by
  refine ⟨.of_same, fun ⟨hin, _, hopen⟩ => ⟨hin, ?_, hopen⟩⟩
  simp only [State.postAnswer, List.length_append, List.length_singleton]
  omega

/-- A request whose owner keeps the laws keeps them (R188, R189). -/
theorem serve_kept (s : State) (i : Instr) {owner : State → State × List Byte} (h : OwnerKept s (owner s).1) :
    StepKept s (s.serve i owner) := by
  cases hi : i.request? with
  | none => simpa only [State.serve, hi] using StepKept.refl s
  | some r =>
    obtain ⟨ty, tag, p⟩ := r
    rcases serve_cases hi owner with ⟨_, e⟩ | ⟨_, _, e⟩ | ⟨ready, e⟩ <;> rw [e]
    · exact .refl s
    · exact stall_kept s _
    · exact h.step.trans (postAnswer_kept _ (by rw [h.outbound]; exact ready.2.1))

theorem chipSelectFall_kept (s t : State) (h : execChipSelectFall s = .next t) : StepKept s t := by
  cases h
  split
  · exact .refl s
  · refine ⟨.of_same, fun ⟨hin, hout, _⟩ => ⟨hin, hout, fun u hu hopen => ?_⟩⟩
    cases hu
    have room : ¬ 2 - s.link.inbound.length = 0 := of_decide_eq_false hopen
    change s.link.inbound.length ≤ 1
    omega

theorem chipSelectRise_kept (mosi : List Byte) (crossed : Nat) (s t : State) (h : execChipSelectRise mosi crossed s = .next t) :
    StepKept s t := by
  cases h
  split
  · exact .refl s
  · rename_i u hu
    refine ⟨.of_same, fun ⟨hin, hout, hopen⟩ => ⟨?_, ?_, fun _ hn => by cases hn⟩⟩ <;> dsimp only
    · split
      · rename_i takes
        simp only [Bool.and_eq_true, Bool.not_eq_true'] at takes
        have := hopen u hu takes.2
        simp only [List.length_append, List.length_singleton]
        omega
      · exact hin
    · split
      · simp only [List.length_tail]
        omega
      · exact hout

theorem framingRefusal_kept (raw : RawRequest) (s t : State) (h : execFramingRefusal raw s = .next t) : StepKept s t := by
  cases h
  split
  · exact .refl s
  · split
    · split
      · rename_i hs
        simp only [State.canServe, State.canAnswer, Bool.and_eq_true, decide_eq_true_eq] at hs
        exact postAnswer_kept _ hs.2
      · exact stall_kept s _
    · exact .refl s

/-! ## Resets and the start of the count (R3, R198, R199) -/

/-- A lane after either reset is sound. -/
theorem laneReset_laws : Lane.reset.RingLaw ∧ Lane.reset.StateLaw ∧ Lane.reset.PoolLaw := by
  refine ⟨?_, ?_, ?_⟩
  · rw [Lane.ringLaw_iff]
    exact ⟨Lane.ring_of_empty ⟨rfl, rfl⟩ rfl, fun _ => ⟨rfl, rfl⟩⟩
  · exact fun h => LaneState.noConfusion h
  · exact ⟨by decide, by decide, by decide, fun _ => rfl, fun _ => rfl⟩

theorem resetLanes_laws {s : State} (h : s.lanes = LaneMap.all Lane.reset) : s.RingLaw ∧ s.StateLaw ∧ s.PoolLaw := by
  have lane : ∀ i, s.lanes.get i = Lane.reset := fun i => by rw [h, LaneMap.get_all]
  refine ⟨fun i => ?_, fun i => ?_, fun i => ?_, ?_⟩
  · rw [lane]; exact laneReset_laws.1
  · rw [lane]; exact laneReset_laws.2.1
  · rw [lane]; exact laneReset_laws.2.2
  · simp only [quotaSum_eq, lane]
    decide

theorem reset_rate : State.reset.RateLaw := ⟨by decide, by decide⟩

theorem reset_flags : State.reset.FlagLaw := ⟨by decide, by decide⟩

/-- The part after cold reset, its queue and its count of readings as they were, meets every law. -/
theorem coldReset_laws (p : List Instr) (n : Nat) :
    let t : State := { State.reset with pending := p, samples := n }
    t.StoreLaw ∧ t.CaptureLaw ∧ t.RateLaw ∧ t.LinkLaw ∧ t.FlagLaw ∧ t.RingLaw ∧ t.PoolLaw ∧ t.StateLaw := by
  intro t
  obtain ⟨ring, state, pool⟩ := resetLanes_laws (s := t) rfl
  exact ⟨⟨rfl, fun e he => by cases he⟩, ⟨Nat.zero_le _, trivial⟩, reset_rate,
    ⟨Nat.zero_le _, Nat.zero_le _, fun _ h => by cases h⟩, reset_flags, ring, pool, state⟩

theorem coldReset_kept (s t : State) (h : execColdReset s = .next t) : StepKept s t := by
  cases h
  obtain ⟨store, capture, rate, link, flags, ring, pool, state⟩ := coldReset_laws s.pending s.samples
  exact ⟨⟨fun _ => store, fun _ => capture, fun _ => rate, fun _ => flags, fun _ => ring, fun _ => state, fun _ => pool⟩,
    fun _ => link⟩

/-- The blocks through a warm reset (R198). -/
theorem warm_kept (s : State) : StepKept s s.warm := by
  obtain ⟨ring, state, pool⟩ := resetLanes_laws (s := s.warm) rfl
  refine ⟨⟨id, fun _ => ⟨Nat.zero_le _, trivial⟩, id, fun h => ⟨by simp [State.warm, Link.warm], h.2⟩, fun _ => ring,
    fun _ => state, fun _ => pool⟩, fun ⟨hin, _, hopen⟩ => ⟨hin, Nat.zero_le _, fun t ht hfull => ?_⟩⟩
  obtain ⟨u, hu, rfl⟩ := Option.map_eq_some_iff.mp ht
  exact hopen u hu hfull

theorem xreset_kept (tag : Byte) (s t : State) (h : execXreset tag s = .next t) : StepKept s t := by
  cases h
  split
  · split
    · exact (warm_kept s).trans (postAnswer_kept _ (by decide : (0 : Nat) < 8))
    · exact stall_kept s _
  · exact .refl s

/-! ## A block boundary (R4, R87, R141) -/

theorem clipWork_lawsKept (s : State) (p : OutPort) (b : LaneMap Block) : LawsKept s (s.clipWork p b) := by
  have counted : LawsKept s { s with mixer := s.mixer.countClips p (s.ports.get p).format.enable b } := .of_same
  unfold State.clipWork
  dsimp only
  split
  · exact counted.trans (raisePort_lawsKept _ _)
  · exact counted

theorem outputWork_lawsKept (s : State) (b : LaneMap Block) (e : Bool) : LawsKept s (s.outputWork b e) := by
  have mixed : LawsKept s s.mixerWork := .of_same
  have clipped := (mixed.trans (clipWork_lawsKept _ .spa b)).trans (clipWork_lawsKept _ .spb b)
  have ported : LawsKept ((s.mixerWork.clipWork .spa b).clipWork .spb b) (s.outputWork b e) := .of_same
  exact clipped.trans ported

theorem cuesWork_lawsKept (s : State) (k : BlockIndex) (o : List (CueId × Bool)) : LawsKept s (s.cuesWork k o) := by
  have frame := cuesWork_frame s k o
  refine .of_lanes (fun i => ?_) frame.part.store (by rw [frame.part.strobe]) (by rw [frame.part.tracker]) frame.portFlags
    frame.part.enables
  rw [frame.lanes i]
  exact .of_marks _ _ _

theorem boundaryWork_stepKept (s : State) : StepKept s s.boundaryWork := by
  have part := boundaryWork_part s
  have lanes : LawsKept s ({ s with boundaryDue := false }.setLanes (workedLanes s.lanesWork)) :=
    .of_lanes fun i => by simpa [workedLanes, State.lanesWork] using boundaryWork_kept _ _
  refine ⟨(lanes.trans (outputWork_lawsKept _ _ _)).trans (cuesWork_lawsKept _ _ _), fun h => ?_⟩
  rwa [State.LinkLaw, part.inbound, part.outbound, part.transaction]

theorem blockBoundary_kept (s t : State) (h : execBlockBoundary s = .next t) : StepKept s t := by
  cases h
  split
  · exact boundaryWork_stepKept s
  · exact .refl s

theorem countStart_kept (s t : State) (h : execCountStart s = .next t) : StepKept s t := by
  cases h
  split
  · exact .refl s
  · have started : StepKept s ({ s with running := true, count := 0 }.raiseTracker .boot) := ⟨.of_same, id⟩
    exact started.trans (boundaryWork_stepKept _)

/-! ## Strobe capture and the tracker's own timers (R7 to R11, R19, R35, R36) -/

theorem strobeEdge_kept (dir : EdgeDir) (s t : State) (h : execStrobeEdge dir s = .next t) : StepKept s t := by
  cases h
  dsimp only
  split
  · rename_i hc
    simp only [Bool.and_eq_true] at hc
    have edged : ∀ (u : State), StepKept u { u with strobe := { u.strobe with lastEdge := some s.count } } :=
      fun _ => ⟨.of_same, id⟩
    exact (appendCapture_kept _ hc.2).step.trans (edged _)
  · exact .refl s

theorem captureEntryExpiry_kept (s t : State) (h : execCaptureEntryExpiry s = .next t) : StepKept s t := by
  cases h
  split
  · rw [← List.drop_one]
    exact (dropCaptures_kept s 1).step
  · exact .refl s

/-! ## SPC (R150 to R153) -/

theorem runningLane_isRunning {s : State} {i : LaneId} (h : s.runningLane = some i) : (s.lanes.get i).isRunning = true := by
  simpa using List.find?_some h

theorem deliver_kept (s : State) (a : Assembly) : StepKept s (s.deliver a) := by
  unfold State.deliver
  split
  · exact .refl s
  · rename_i i hi
    have hr := runningLane_isRunning hi
    have kept := takeSample_sampleKept s.tracker a.opened a.values.1 a.values.2 (s.lanes.get i) s.store
    have lanes := setLane_laws (s := s) (i := i) (kept.ringLaw hr) kept.stateLaw (kept.poolLaw hr) fun h => by
      rw [quotaSum_setLane kept.enabled (by rw [kept.config])]
      exact h.2
    exact ⟨⟨takeSample_sound _ _ _ _ _, lanes.capture, lanes.rate, lanes.flags, lanes.ring, lanes.state, lanes.pool⟩, id⟩

theorem spcSampleComplete_kept (s t : State) (h : execSpcSampleComplete s = .next t) : StepKept s t := by
  cases h
  split
  · have delivered : StepKept s s.deliverAssembly := by
      rcases deliverAssembly_cases s with e | ⟨a, _, _, e⟩ <;> rw [e]
      · exact .refl s
      · exact deliver_kept s a
    exact delivered.trans ⟨.of_same, id⟩
  · exact .refl s

theorem inputClockLoss_kept (s t : State) (h : execInputClockLoss s = .next t) : StepKept s t := by
  cases h
  split
  · have lost : LawsKept s { s with
        spc := { s.spc with assembly := none, watch := .lost }, lanes := s.lanes.mapId fun _ (l : Lane) => l.clockLost } :=
      .of_lanes fun i => by simpa using clockLost_kept _
    exact ⟨lost.trans (raisePort_lawsKept _ _), id⟩
  · exact .refl s

/-- A command that does one thing where its condition holds. -/
theorem conditional_kept {s t u : State} {b : Bool} (h : (Host.Outcome.next (if b then u else s) : Result) = .next t)
    (k : StepKept s u) : StepKept s t := by
  cases h
  cases b with
  | false => exact .refl s
  | true => exact k

/-! ## Steps -/

/-- Every command keeps the laws. -/
theorem exec_kept (c : Instr) (s t : State) (h : exec c s = .next t) : StepKept s t := by
  cases c with
  | coldReset => exact coldReset_kept s t h
  | countStart => exact countStart_kept s t h
  | blockBoundary => exact blockBoundary_kept s t h
  | strobeEdge dir => exact strobeEdge_kept dir s t h
  | lastAcceptedEdgeExpiry => exact conditional_kept h ⟨.of_same, id⟩
  | captureEntryExpiry => exact captureEntryExpiry_kept s t h
  | reAnchor => exact conditional_kept h ⟨.of_same, id⟩
  | holdoverExpiry => exact conditional_kept h ⟨.of_same, id⟩
  | freerunExpiry => exact conditional_kept h ⟨.of_same, id⟩
  | chipSelectFall => exact chipSelectFall_kept s t h
  | chipSelectRise mosi crossed => exact chipSelectRise_kept mosi crossed s t h
  | framingRefusal raw => exact framingRefusal_kept raw s t h
  | tnow tag => cases h; exact serve_kept s _ (.refl s)
  | tset tag req => cases h; exact serve_kept s _ (setOwner_kept req s)
  | trole tag req => cases h; exact serve_kept s _ (roleOwner_kept req s)
  | tsync tag req => cases h; exact serve_kept s _ (syncOwner_kept req s)
  | tstrobe tag req => cases h; exact serve_kept s _ (strobeOwner_kept req s)
  | tcaps tag count => cases h; exact serve_kept s _ (capsOwner_kept count s)
  | tinj tag => cases h; exact serve_kept s _ (injectOwner_kept s)
  | lcfg tag req => cases h; exact serve_kept s _ (configOwner_kept req s)
  | lbind tag req => cases h; exact serve_kept s _ (bindOwner_kept req s)
  | lframe tag req => cases h; exact serve_kept s _ (frameOwner_kept req s)
  | lgo tag lane => cases h; exact serve_kept s _ (goOwner_kept lane s)
  | lhalt tag req => cases h; exact serve_kept s _ (haltOwner_kept req s)
  | lstat tag lane => cases h; exact serve_kept s _ (statOwner_kept lane s)
  | lfetch tag lane => cases h; exact serve_kept s _ (fetchOwner_kept lane s)
  | mgain tag req => cases h; exact serve_kept s _ (gainOwner_kept req s)
  | mduck tag req => cases h; exact serve_kept s _ (duckOwner_kept req s)
  | pcfg tag req => cases h; exact serve_kept s _ (portOwner_kept req s)
  | cset tag req => cases h; exact serve_kept s _ (cueSetOwner_kept req s)
  | crun tag req => cases h; exact serve_kept s _ (cueRunOwner_kept req s)
  | gset tag req => cases h; exact serve_kept s _ (lineOwner_kept req s)
  | gread tag => cases h; exact serve_kept s _ (linesOwner_kept s)
  | eread tag => cases h; exact serve_kept s _ (.refl s)
  | eclear tag mask => cases h; exact serve_kept s _ (clearOwner_kept mask s)
  | emask tag enables => cases h; exact serve_kept s _ (maskOwner_kept enables s)
  | xreset tag => exact xreset_kept tag s t h
  | xident tag => cases h; exact serve_kept s _ (.refl s)
  | hangTailEnd port => exact conditional_kept h ⟨.of_same, id⟩
  | samplePeriod port => exact conditional_kept h ⟨.of_same, id⟩
  | spcSampleComplete => exact spcSampleComplete_kept s t h
  | inputClockLoss => exact inputClockLoss_kept s t h
  | spcWordSelectEdge => exact conditional_kept h ⟨.of_same, id⟩
  | spcBitTaken bit => exact conditional_kept h ⟨.of_same, id⟩

/-- A local tick (R3). -/
theorem tick_kept (s : State) : StepKept s s.tick := by
  unfold State.tick
  split
  · exact ⟨.of_same, id⟩
  · exact .refl s

/-- The requests that wait behind the one that a step serves. -/
theorem linkNext_inbound {s : State} {c : Instr} {rest : List RawRequest} (h : s.linkNext? = some (c, rest)) :
    ∃ raw, s.link.inbound = raw :: rest := by
  unfold State.linkNext? at h
  split at h
  · cases h
  · rename_i raw more e
    split at h <;> cases h
    exact ⟨raw, e⟩

/-- Every step keeps the laws. -/
theorem step_kept (s t : State) (h : step s = .next t) : StepKept s t := by
  rcases step_cases s with ⟨c, rest, _, e⟩ | ⟨_, _, e⟩ | ⟨_, _, c, rest, u, hl, hu, e⟩ | ⟨_, _, _, e⟩ <;> rw [e] at h
  · have popped : StepKept s { s with pending := rest } := ⟨.of_same, id⟩
    exact popped.trans (exec_kept c _ t h)
  · cases h
    exact ⟨.of_same, id⟩
  · cases h
    obtain ⟨raw, hin⟩ := linkNext_inbound hl
    have emptied : StepKept s (s.withInbound []) :=
      ⟨.of_same, fun ⟨_, hout, _⟩ => ⟨Nat.zero_le _, hout, fun _ _ _ => Nat.zero_le _⟩⟩
    have served := emptied.trans (exec_kept c _ u hu)
    refine ⟨served.toLawsKept.trans .of_same, fun hlaw => ?_⟩
    have behind : rest.length ≤ 1 := by simpa [hin] using hlaw.1
    exact ⟨behind.trans one_le_two, (served.link hlaw).2.1, fun _ _ _ => behind⟩
  · cases h
    exact tick_kept s

/-- Settles O56: of a step's commands only LFRAME and SPC's opening edge write the store, and they write samples at words of it. -/
theorem storeLawIsKept : Obligations.StoreLawIsKept := fun s t law h => (step_kept s t h).store law

/-- Settles O57: the four laws are fields of what every step keeps. -/
theorem captureRateLinkAndFlagLawsAreKept : Obligations.CaptureRateLinkAndFlagLawsAreKept :=
  ⟨fun s t law h => (step_kept s t h).capture law, fun s t law h => (step_kept s t h).rate law,
    fun s t law h => (step_kept s t h).link law, fun s t law h => (step_kept s t h).flags law⟩

/-- Settles O58: every operation of a lane keeps its ring in order and its state machine. -/
theorem ringAndStateLawsAreKept : Obligations.RingAndStateLawsAreKept :=
  ⟨fun s t law h => (step_kept s t h).ring law, fun s t law h => (step_kept s t h).state law⟩

/-- Settles O59: admission and capture find a record within the quota, and LCFG's check 5 keeps the quotas within the pool. -/
theorem poolLawIsKept : Obligations.PoolLawIsKept := fun s t law h => (step_kept s t h).pool law

/-- Settles O60. -/
theorem lawsHoldAtReset : Obligations.LawsHoldAtReset := coldReset_laws [] 0

end Sys2Proof.Machine

/-! What a step is (R3, R188, R189): the front command, the oldest request, the events that a tick makes due; and a count that is held. -/

namespace Sys2Proof.Machine

/-! ## The front command and the oldest request (R189) -/

/-- Settles O1: it is the first case of `step`. -/
theorem stepRunsFrontCommand : Obligations.StepRunsFrontCommand := by
  intro c rest s hp
  simp only [step, hp]

/-- A request but XRESET is served by its owner (R189). -/
theorem exec_request {c : Instr} {ty : ReqType} {tag : Byte} {p : List Byte} (s : State) (h : c.request? = some (ty, tag, p))
    (hx : ∀ tag, c ≠ .xreset tag) : ∃ owner, exec c s = .next (s.serve c owner) := by
  cases c
  case xreset tag => exact absurd rfl (hx tag)
  all_goals cases h
  all_goals exact ⟨_, rfl⟩

/-- A stall takes a slot where one is free beside the one promised to a transaction whose verdict is OPEN (R187; log 4). -/
theorem stall_eq (s : State) (raw : RawRequest) :
    s.stall raw =
      if s.link.inbound.length + (match s.link.transaction with
        | none => 0
        | some t => if t.full then 0 else 1) < 2 then { s with link := { s.link with inbound := s.link.inbound ++ [raw] } }
      else s := by
  have promised : s.promisedSlots = match s.link.transaction with
      | none => 0
      | some t => if t.full then 0 else 1 := rfl
  rw [← promised]
  unfold State.stall State.freeSlots Config.inboundSlots
  by_cases room : s.link.inbound.length + s.promisedSlots < 2
  · rw [if_pos room, if_neg (by omega)]
  · rw [if_neg room, if_pos (by omega)]

theorem canServe_iff (s : State) : s.canServe = true ↔ s.link.outbound.length < 8 ∧ s.link.inbound = [] :=
  ⟨fun h => ⟨of_decide_eq_true (Bool.and_eq_true_iff.mp h).2, List.isEmpty_iff.mp (Bool.and_eq_true_iff.mp h).1⟩,
    fun h => Bool.and_eq_true_iff.mpr ⟨List.isEmpty_iff.mpr h.2, decide_eq_true h.1⟩⟩

/-- A request that cannot be processed waits, an XRESET behind an older one and a framing refusal included (R189; log 4). -/
theorem exec_waits {c : Instr} {raw : RawRequest} {s : State}
    (hc : ((∃ ty tag p, c.request? = some (ty, tag, p)) ∧ raw = encodeRequest c) ∨
      (c = .framingRefusal raw ∧ framingAnswer raw ≠ none))
    (hr : s.running = true) (hw : s.link.inbound ≠ [] ∨ (8 ≤ s.link.outbound.length ∧ ∀ tag, c ≠ .xreset tag)) :
    exec c s = .next (s.stall raw) := by
  have busy : ¬(s.link.outbound.length < 8 ∧ s.link.inbound = []) := by
    rintro ⟨hout, hin⟩
    rcases hw with hw | hw
    · exact hw hin
    · omega
  rcases hc with ⟨⟨ty, tag, p, hreq⟩, rfl⟩ | ⟨rfl, ha⟩
  · by_cases hx : ∃ tag, c = .xreset tag
    · obtain ⟨tag, rfl⟩ := hx
      have hin : s.link.inbound ≠ [] := hw.resolve_right fun h => h.2 tag rfl
      simp [exec, execXreset, hr, hin]
    · obtain ⟨owner, e⟩ := exec_request s hreq fun tag h => hx ⟨tag, h⟩
      rw [e, serve_waits hreq hr busy]
  · have hserve : s.canServe = false := Bool.eq_false_iff.mpr (mt (canServe_iff s).mp busy)
    obtain ⟨a, ha⟩ := Option.ne_none_iff_exists'.mp ha
    simp [exec, execFramingRefusal, ha, hr, hserve]

/-- The oldest request of the buffer, where it can be processed (R189). -/
theorem linkNext_of_front {s : State} {raw : RawRequest} {rest : List RawRequest} (hin : s.link.inbound = raw :: rest)
    (hr : s.running = true) (h : s.link.outbound.length < 8 ∨ ∃ tag, decodeRequest raw = .xreset tag) :
    s.linkNext? = some (decodeRequest raw, rest) := by
  have serves : (s.canAnswer || isXreset (decodeRequest raw)) = true := by
    rcases h with h | ⟨tag, h⟩
    · simp [State.canAnswer, Config.outboundAnswers, h]
    · simp [h, isXreset]
  simp [State.linkNext?, hin, hr, serves]

/-- Settles O2: an idle step by `linkNext_of_front`, a request that waits by `exec_waits`. -/
theorem idleStepServesOldestRequest : Obligations.IdleStepServesOldestRequest := by
  refine ⟨fun raw rest s hp hr hd hin h => ?_, fun c raw s hc hr hw => ?_⟩
  · obtain ⟨t, ht⟩ := exec_next (decodeRequest raw) (s.withInbound [])
    refine ⟨t, ht, ?_⟩
    simp only [step, hp, State.periodsWait, hd, Bool.and_false, Bool.false_eq_true, if_false, linkNext_of_front hin hr h, ht]
    rfl
  · exact (exec_waits hc hr hw).trans (congrArg Host.Outcome.next (stall_eq _ _))

/-! ## A count that is held (R3, R188) -/

theorem serve_held {s : State} (h : s.running = false) (i : Instr) (owner : State → State × List Byte) :
    s.serve i owner = s := by
  unfold State.serve
  split
  · rfl
  · simp [h]

/-- Settles O4: every request goes by `serve_held`, and every event of the part tests the running count first. -/
theorem heldUntilCountStarts : Obligations.HeldUntilCountStarts := by
  intro c s hr ht hcold hstart
  cases c
  case coldReset => exact absurd rfl hcold
  case countStart => exact absurd rfl hstart
  case blockBoundary => simp [exec, execBlockBoundary, hr]
  case strobeEdge dir => simp [exec, execStrobeEdge, hr]
  case lastAcceptedEdgeExpiry => simp [exec, execLastAcceptedEdgeExpiry, State.lastEdgeAged, hr]
  case captureEntryExpiry => simp [exec, execCaptureEntryExpiry, State.oldestCaptureAged, hr]
  case reAnchor => simp [exec, execReAnchor, State.anchorAged, hr]
  case holdoverExpiry => simp [exec, execHoldoverExpiry, State.holdoverDue, hr]
  case freerunExpiry => simp [exec, execFreerunExpiry, State.freerunDue, hr]
  case chipSelectFall => simp [exec, execChipSelectFall, hr]
  case chipSelectRise mosi crossed => simp [exec, execChipSelectRise, ht]
  case framingRefusal raw =>
    simp only [exec, execFramingRefusal, hr, Bool.false_eq_true, if_false]
    split <;> rfl
  case xreset tag => simp [exec, execXreset, hr]
  case hangTailEnd port => simp [exec, execHangTailEnd, State.tailReached, hr]
  case samplePeriod port => simp [exec, execSamplePeriod, hr]
  case spcSampleComplete => simp [exec, execSpcSampleComplete, State.spcEdgeSeen, hr]
  case inputClockLoss => simp [exec, execInputClockLoss, State.clockLossDue, hr]
  case spcWordSelectEdge => simp [exec, execSpcWordSelectEdge, State.spcEdgeSeen, hr]
  case spcBitTaken bit => simp [exec, execSpcBitTaken, State.spcClockSeen, hr]
  all_goals exact congrArg Host.Outcome.next (serve_held hr _ _)

/-! ## Resets (R198, R199) -/

/-- The enables after cold reset: BOOT's alone (R199). -/
theorem resetEnables_iff (f : Flag) : Link.reset.enables.getLsbD f.place = true ↔ f = .tracker .boot := by
  cases f with
  | tracker f => cases f <;> decide
  | lane i f => cases i <;> cases f <;> decide
  | port f => cases f <;> decide
  | cue f => cases f with
    | fired c => cases c <;> decide
    | fail c => cases c <;> decide

theorem flagWord_reset : State.reset.flagWord = 0 := by decide

theorem attn_reset : State.reset.attn = false := by decide

/-- Settles O5: the state by its definition; of what is read from it, the flags' enables by `resetEnables_iff`. -/
theorem coldResetGivesColdValues : Obligations.ColdResetGivesColdValues := by
  rintro s port channel out lane cue line rfl rfl rfl rfl rfl rfl
  refine ⟨_, rfl, rfl, fun _ => rfl, fun i => ?_, fun p => ?_, flagWord_reset, resetEnables_iff, attn_reset⟩
  · cases i <;> exact ⟨rfl, rfl⟩
  · cases p <;> rfl

/-- Settles O7: XRESET is served where no older request waits, whatever the outbound queue holds. -/
theorem warmResetKeepsAndClears : Obligations.WarmResetKeepsAndClears := by
  intro tag s hr hin
  have front : s.link.inbound.isEmpty = true := by rw [hin]; rfl
  refine congrArg Host.Outcome.next ?_
  rw [if_pos hr, if_pos front]
  rfl

/-! ## The events that the count makes due (R3, R4, R8, R11, R19, R35, R36, R146, R149 to R153) -/

theorem mem_dueIf {c i : Instr} {b : Bool} : c ∈ dueIf b i ↔ c = i ∧ b = true := by
  cases b <;> simp [dueIf]

theorem dueIf_sublist (b : Bool) (i : Instr) : (dueIf b i).Sublist [i] := by
  cases b
  · exact List.nil_sublist _
  · exact List.Sublist.refl _

theorem lastEdgeAged_iff (s : State) :
    s.lastEdgeAged = true ↔ s.running = true ∧ ∃ e, s.strobe.lastEdge = some e ∧ 2 ^ 46 ≤ (s.count - e).toInt := by
  unfold State.lastEdgeAged
  cases s.strobe.lastEdge <;> simp [Config.ageLimit, sdiff]

theorem oldestCaptureAged_iff (s : State) :
    s.oldestCaptureAged = true ↔
      s.running = true ∧ ∃ e rest, s.strobe.queue = e :: rest ∧ 2 ^ 46 ≤ (s.count - e.time).toInt := by
  unfold State.oldestCaptureAged
  cases s.strobe.queue <;> simp [Config.ageLimit, sdiff]

theorem anchorAged_iff (s : State) :
    s.anchorAged = true ↔
      s.running = true ∧ s.tracker.state ≠ .unlocked ∧ 2 ^ 46 ≤ (s.count - s.tracker.l0).toInt := by
  simp [State.anchorAged, Config.ageLimit, sdiff, and_assoc]

theorem holdoverDue_iff (s : State) :
    s.holdoverDue = true ↔ s.running = true ∧ s.tracker.state = .locked ∧
      (s.tracker.settings.thold : Int) ≤ (s.count - s.tracker.lastAccept).toInt := by
  simp [State.holdoverDue, State.sinceAccept, sdiff, and_assoc]

theorem freerunDue_iff (s : State) :
    s.freerunDue = true ↔ s.running = true ∧ s.tracker.state = .holdover ∧
      (s.tracker.settings.thold + s.tracker.settings.tfree : Int) ≤ (s.count - s.tracker.lastAccept).toInt := by
  simp [State.freerunDue, State.sinceAccept, sdiff, and_assoc]

theorem tailReached_iff (s : State) (p : OutPort) :
    s.tailReached p = true ↔ s.running = true ∧ ∃ e, (s.ports.get p).tailEnd = some e ∧ 0 ≤ (s.count - e).toInt := by
  unfold State.tailReached
  cases (s.ports.get p).tailEnd <;> simp [notEarlier, sdiff]

theorem clockLossDue_iff (s : State) :
    s.clockLossDue = true ↔ s.running = true ∧ ∃ w, s.spc.watch = .watching w ∧ 65536 ≤ (s.count - w).toInt := by
  unfold State.clockLossDue
  cases s.spc.watch <;> simp [Config.clockLossTicks, sdiff]

theorem spcDrives_iff (s : State) : s.spcDrives = true ↔ s.spc.inForce.enable = true ∧ s.spc.modeInForce = .master := by
  simp [State.spcDrives]

/-- The events of the start of a sample period, by the configurations in force (R143, R146, R150). -/
theorem mem_periodEvents (s : State) (c : Instr) :
    c ∈ s.periodEvents ↔ (∃ p, c = .samplePeriod p ∧ (s.ports.get p).inForce.enable = true) ∨
      (c = .spcSampleComplete ∧ s.spc.inForce.enable = true ∧ s.spc.modeInForce = .master) := by
  simp only [State.periodEvents, List.mem_append, mem_dueIf, spcDrives_iff, State.portOn]
  constructor
  · rintro ((⟨rfl, h⟩ | ⟨rfl, h⟩) | h)
    · exact .inl ⟨.spa, rfl, h⟩
    · exact .inl ⟨.spb, rfl, h⟩
    · exact .inr h
  · rintro (⟨p, rfl, h⟩ | h)
    · cases p with
      | spa => exact .inl (.inl ⟨rfl, h⟩)
      | spb => exact .inl (.inr ⟨rfl, h⟩)
    · exact .inr h

theorem periodEvents_sublist (s : State) :
    s.periodEvents.Sublist [.samplePeriod .spa, .samplePeriod .spb, .spcSampleComplete] :=
  ((dueIf_sublist _ _).append (dueIf_sublist _ _)).append (dueIf_sublist _ _)

/-- The due events, each at its one place in the model's order (log 2). -/
theorem dueEvents_sublist (s : State) :
    s.dueEvents.Sublist [.lastAcceptedEdgeExpiry, .captureEntryExpiry, .reAnchor, .holdoverExpiry, .freerunExpiry, .blockBoundary,
      .samplePeriod .spa, .samplePeriod .spb, .spcSampleComplete, .spcWordSelectEdge, .spcBitTaken (Config.dataLevel s.samples),
      .hangTailEnd .spa, .hangTailEnd .spb, .inputClockLoss] := by
  have periods : (if s.periodStart && !s.boundaryDue then s.periodEvents else []).Sublist
      [.samplePeriod .spa, .samplePeriod .spb, .spcSampleComplete] := by
    split
    · exact periodEvents_sublist s
    · exact List.nil_sublist _
  have timers := ((((dueIf_sublist s.lastEdgeAged .lastAcceptedEdgeExpiry).append
    (dueIf_sublist s.oldestCaptureAged .captureEntryExpiry)).append (dueIf_sublist s.anchorAged .reAnchor)).append
    (dueIf_sublist s.holdoverDue .holdoverExpiry)).append (dueIf_sublist s.freerunDue .freerunExpiry)
  have block := (timers.append (dueIf_sublist s.boundaryDue .blockBoundary)).append periods
  have lines := (block.append (dueIf_sublist (s.periodMiddle && s.spcDrives) .spcWordSelectEdge)).append
    (dueIf_sublist s.spcBitDue (.spcBitTaken (Config.dataLevel s.samples)))
  exact ((lines.append (dueIf_sublist (s.tailReached .spa) (.hangTailEnd .spa))).append
    (dueIf_sublist (s.tailReached .spb) (.hangTailEnd .spb))).append (dueIf_sublist s.clockLossDue .inputClockLoss)

theorem dueEvents_nodup (s : State) : s.dueEvents.Nodup := (dueEvents_sublist s).nodup (by simp)

/-- The due events, each with its condition (R3, R4, R8, R11, R19, R35, R36, R146, R149 to R153). -/
theorem mem_dueEvents (s : State) (c : Instr) :
    c ∈ s.dueEvents ↔
      (c = .lastAcceptedEdgeExpiry ∧ s.lastEdgeAged = true) ∨ (c = .captureEntryExpiry ∧ s.oldestCaptureAged = true) ∨
      (c = .reAnchor ∧ s.anchorAged = true) ∨ (c = .holdoverExpiry ∧ s.holdoverDue = true) ∨
      (c = .freerunExpiry ∧ s.freerunDue = true) ∨ (c = .blockBoundary ∧ s.boundaryDue = true) ∨
      ((s.count.toNat % 512 = 0 ∧ s.boundaryDue = false) ∧ c ∈ s.periodEvents) ∨
      (c = .spcWordSelectEdge ∧ s.count.toNat % 512 = 256 ∧ s.spc.inForce.enable = true ∧ s.spc.modeInForce = .master) ∨
      (c = .spcBitTaken (Config.dataLevel s.samples) ∧ s.count.toNat % 8 = 4 ∧ s.spc.inForce.enable = true ∧
        s.spc.modeInForce = .master) ∨
      (∃ p, c = .hangTailEnd p ∧ s.tailReached p = true) ∨ (c = .inputClockLoss ∧ s.clockLossDue = true) := by
  have periods : c ∈ (if s.periodStart && !s.boundaryDue then s.periodEvents else []) ↔
      (s.count.toNat % 512 = 0 ∧ s.boundaryDue = false) ∧ c ∈ s.periodEvents := by
    by_cases h : s.count.toNat % 512 = 0 <;> cases s.boundaryDue <;> simp [State.periodStart, onGrid, Config.sampleTicks, h]
  have tails : (∃ p, c = .hangTailEnd p ∧ s.tailReached p = true) ↔
      (c = .hangTailEnd .spa ∧ s.tailReached .spa = true) ∨ (c = .hangTailEnd .spb ∧ s.tailReached .spb = true) :=
    ⟨fun ⟨p, h⟩ => by cases p <;> simp [h], fun h => h.elim (fun h => ⟨_, h⟩) fun h => ⟨_, h⟩⟩
  simp only [State.dueEvents, List.mem_append, mem_dueIf, periods, tails, or_assoc]
  simp only [Bool.and_eq_true, spcDrives_iff, State.spcBitDue, State.periodMiddle, State.clockRise, Config.sampleTicks,
    beq_iff_eq]

theorem spcBitDue_iff (s : State) :
    s.spcBitDue = true ↔ s.count.toNat % 8 = 4 ∧ s.spc.inForce.enable = true ∧ s.spc.modeInForce = .master := by
  simp [State.spcBitDue, State.clockRise, spcDrives_iff]

/-- The readings a tick takes are those of SPC's bit (log 7). -/
theorem readingsDue_eq (s : State) :
    s.readingsDue =
      if s.count.toNat % 8 = 4 ∧ s.spc.inForce.enable = true ∧ s.spc.modeInForce = .master then 1 else 0 := by
  simp only [State.readingsDue, spcBitDue_iff]

/-- With nothing to run and nothing to serve a step is a tick (R3, R189). -/
theorem step_tick {s : State} (hp : s.pending = []) (hd : s.periodsDue = false)
    (hin : ∀ raw rest, s.link.inbound = raw :: rest →
      8 ≤ s.link.outbound.length ∧ ∀ tag, decodeRequest raw ≠ .xreset tag) : step s = .next s.tick := by
  have waits : s.linkNext? = none := by
    unfold State.linkNext?
    split
    · rfl
    · rename_i raw rest e
      obtain ⟨hout, hx⟩ := hin raw rest e
      have notXreset : isXreset (decodeRequest raw) = false := by
        cases hd : decodeRequest raw
        case xreset tag => exact absurd hd (hx tag)
        all_goals rfl
      simp [State.canAnswer, Config.outboundAnswers, Nat.not_lt.mpr hout, notXreset]
  simp only [step, hp, State.periodsWait, hd, Bool.and_false, Bool.false_eq_true, if_false, waits]

theorem onGrid_iff (t : Time) (n : Nat) : onGrid t n = true ↔ t.toNat % n = 0 := by
  simp [onGrid]

/-- A multiple of a block's ticks is one of a sample period's (R4, R5). -/
theorem sampleGrid_of_blockGrid {n : Nat} (h : n % 32768 = 0) : n % 512 = 0 := by omega

/-- Settles O3: the events a tick queues are those of `mem_dueEvents` at the new count, and each of the conditions there has its lemma;
a boundary's periods are those of `mem_periodEvents`. -/
theorem idleStepTakesATick : Obligations.IdleStepTakesATick := by
  refine ⟨?_, fun s hp hr hd => ⟨s.queuePeriods, ?_, rfl, ?_, fun c => ?_⟩⟩
  · rintro s n boundary rfl rfl hp hr hd hin
    have block : onGrid (s.count + 1) Config.blockTicks = decide ((s.count + 1).toNat % 32768 = 0) :=
      Bool.eq_iff_iff.mpr ((onGrid_iff _ _).trans decide_eq_true_iff.symm)
    have ticked : s.tick = { s.advanceCount with
        pending := s.advanceCount.dueEvents, samples := s.samples + s.advanceCount.readingsDue } := by
      simp only [State.tick, hr, hp, if_true, List.nil_append]
    refine ⟨s.tick, step_tick hp hd hin, ?_, ?_, fun c => ?_⟩ <;> rw [ticked]
    · rw [readingsDue_eq]
      simp only [State.advanceCount, block]
    · exact dueEvents_nodup _
    · have periods : ((s.count + 1).toNat % 512 = 0 ∧ ¬(s.count + 1).toNat % 32768 = 0) ∧ c ∈ s.periodEvents ↔
          (∃ p, c = .samplePeriod p ∧ (s.count + 1).toNat % 512 = 0 ∧ (s.count + 1).toNat % 32768 ≠ 0 ∧
            (s.ports.get p).inForce.enable = true) ∨
          (c = .spcSampleComplete ∧ (s.count + 1).toNat % 512 = 0 ∧ (s.count + 1).toNat % 32768 ≠ 0 ∧
            s.spc.inForce.enable = true ∧ s.spc.modeInForce = .master) := by
        rw [mem_periodEvents]
        constructor
        · rintro ⟨⟨grid, block⟩, ⟨p, hc, on⟩ | ⟨hc, on⟩⟩
          · exact .inl ⟨p, hc, grid, block, on⟩
          · exact .inr ⟨hc, grid, block, on⟩
        · rintro (⟨p, hc, grid, block, on⟩ | ⟨hc, grid, block, on⟩)
          · exact ⟨⟨grid, block⟩, .inl ⟨p, hc, on⟩⟩
          · exact ⟨⟨grid, block⟩, .inr ⟨hc, on⟩⟩
      have same : s.advanceCount.periodEvents = s.periodEvents := rfl
      simp only [mem_dueEvents, lastEdgeAged_iff, oldestCaptureAged_iff, anchorAged_iff, holdoverDue_iff, freerunDue_iff,
        tailReached_iff, clockLossDue_iff, same, State.advanceCount_count, State.advanceCount_boundaryDue,
        State.advanceCount_spc, State.advanceCount_samples, State.advanceCount_running, State.advanceCount_strobe,
        State.advanceCount_tracker, State.advanceCount_ports, hr, block, decide_eq_true_iff, decide_eq_false_iff_not, true_and,
        exists_and_left, periods, or_assoc]
  · simp only [step, hp, State.periodsWait, hr, hd, Bool.and_self, if_true]
  · simp only [State.queuePeriods_pending, hp, List.nil_append]
    exact (periodEvents_sublist s).nodup (by simp)
  · simp only [State.queuePeriods_pending, hp, List.nil_append]
    exact mem_periodEvents s c

end Sys2Proof.Machine

/-! Strobe edges and TSTROBE (R6 to R11, R14); the tracker's timers, settings and roles (R19, R35 to R41). -/

namespace Sys2Proof.Machine

/-! ## Strobe edges (R6 to R11) and TSTROBE (R14) -/

theorem StrobePolarity.chooses_iff (p : StrobePolarity) (dir : EdgeDir) :
    p.chooses dir = true ↔ (p = .rising ∧ dir = .rising) ∨ (p = .falling ∧ dir = .falling) := by
  cases p <;> cases dir <;> decide

theorem StrobeCapture.spaced_iff (c : StrobeCapture) (count : Time) :
    c.spaced count = true ↔ ∀ e, c.lastEdge = some e → (c.spacing.toNat : Int) ≤ (count - e).toInt := by
  unfold StrobeCapture.spaced
  cases c.lastEdge with
  | none => simp
  | some e => simp [sdiff]

/-- The local time of an edge: the count with the latency removed (R7). -/
theorem addTicks_neg_latency (count : Time) (latency : BitVec 16) :
    addTicks count (-(latency.toNat : Int)) = count - latency.setWidth 48 := by
  have h : BitVec.ofInt 48 (latency.toNat : Int) = latency.setWidth 48 := by
    apply BitVec.eq_of_toNat_eq
    rw [BitVec.ofInt_natCast, BitVec.toNat_ofNat, BitVec.toNat_setWidth]
  rw [addTicks, BitVec.ofInt_neg, h, BitVec.sub_eq_add_neg]

/-- Settles O17, by the three tests of an edge. -/
theorem strobeEdgeCaptured : Obligations.StrobeEdgeCaptured := by
  intro dir s hr hq
  refine congrArg Host.Outcome.next ?_
  rw [addTicks_neg_latency]
  refine if_congr ?_ ?_ rfl
  · simp only [hr, Bool.true_and, Bool.and_eq_true, StrobePolarity.chooses_iff, StrobeCapture.spaced_iff,
      StrobeCapture.ordered_iff, and_assoc]
  · exact congrArg (fun u : State => { u with strobe := { u.strobe with lastEdge := some s.count } })
      (State.appendCapture_eq hq _ _)

theorem exec_tstrobe_of_ready {s : State} (hs : s.Ready) (tag : Byte) (r : TstrobeReq) :
    exec (.tstrobe tag r) s =
      .next ((strobeOwner r s).1.postAnswer { type := 0x85, tag := tag, payload := (strobeOwner r s).2 }) :=
  congrArg Host.Outcome.next (serve_ready (i := .tstrobe tag r) hs rfl (strobeOwner r))

/-! ## TSET (R41) -/

theorem exec_tset_of_ready {s : State} (hs : s.Ready) (tag : Byte) (r : TsetReq) :
    exec (.tset tag r) s = .next ((setOwner r s).1.postAnswer { type := 0x82, tag := tag, payload := (setOwner r s).2 }) :=
  congrArg Host.Outcome.next (serve_ready (i := .tset tag r) hs rfl (setOwner r))

theorem TrackerSettings.ext_iff (a b : TrackerSettings) :
    a = b ↔ a.kp = b.kp ∧ a.ki = b.ki ∧ a.kia = b.kia ∧ a.w = b.w ∧ a.wacq = b.wacq ∧ a.nout = b.nout ∧ a.nacq = b.nacq ∧
      a.thold = b.thold ∧ a.tfree = b.tfree := by
  cases a
  cases b
  simp only [TrackerSettings.mk.injEq]

/-- An answer's result code by what it turned on: ADJUSTED exactly when the applied value is not the carried one (R191). -/
theorem acceptOr_ne {α : Type} [DecidableEq α] (a b : α) (fields : List Byte) :
    acceptOr (a != b) fields = (if a = b then 0x00 else 0x01) :: fields := by
  by_cases h : a = b
  · subst h
    simp [acceptOr, ResultCode.code]
  · simp [acceptOr, ResultCode.code, h]

/-- Settles O22: TSTROBE by its polarity code; TSET by the clamped settings, which differ from the carried ones in some field exactly
when they are not equal to them. -/
theorem tstrobeAndTset : Obligations.TstrobeAndTset := by
  refine ⟨fun tag polarity latency spacing s hs => ⟨fun p hp => ?_, fun h0 h1 => ?_⟩, fun tag r s hs => ?_⟩
  · rw [exec_tstrobe_of_ready hs]
    rcases hp with ⟨rfl, rfl⟩ | ⟨rfl, rfl⟩ <;> rfl
  · rw [exec_tstrobe_of_ready hs]
    have h : readPolarity polarity = none := by
      rw [readPolarity.eq_def]
      split <;> simp_all
    simp only [strobeOwner, h]
    rfl
  · refine ⟨(carriedSettings r).clamp, rfl, rfl, rfl, rfl, rfl, rfl, rfl, rfl, rfl, ?_⟩
    rw [exec_tset_of_ready hs, setOwner, acceptOr_ne]
    simp only [TrackerSettings.ext_iff]
    rfl

/-! ## The tracker's timers (R8, R11, R19, R35, R36) -/

/-- A quotient rounded to the nearest integer, an exact half upward, is the only one its bounds leave (R2). -/
theorem roundDiv_unique {a b n : Int} (hb : 0 < b) (hlow : b * (2 * n - 1) ≤ 2 * a) (hhigh : 2 * a < b * (2 * n + 1)) :
    roundDiv a b = n := by
  unfold roundDiv
  rw [Int.ediv_eq_iff_of_pos (by omega)]
  constructor <;> nlinarith

theorem sdiff_self (t : Time) : sdiff t t = 0 := by simp [sdiff]

/-- At the anchors the estimate is H0 (R19). -/
theorem Tracker.estimate_anchor (t : Tracker) : t.estimate t.l0 = t.h0 := by
  simp [Tracker.estimate, sdiff_self, roundDiv, addTicks]

theorem Tracker.house_of_ne {t : Tracker} (h : t.state ≠ .unlocked) (l : Time) : t.house? l = some (t.estimate l) := if_neg h

/-- Settles O20: the rounding by `roundDiv_unique`, each timer by what makes it due. -/
theorem timersExpire : Obligations.TimersExpire := by
  refine ⟨fun k l d n hd hhigh hlow => ?_, ⟨fun s e hr he hage => ?_, fun s e rest hr hq hage => ?_⟩, fun s hr hu hage => ?_,
    fun s hr hl hage => ?_, fun s hr hh hage => ?_⟩
  · subst hd
    rw [← roundDiv_unique (by decide) hlow hhigh]
    rfl
  · refine congrArg Host.Outcome.next (if_pos ?_)
    simpa [State.lastEdgeAged, hr, he, Config.ageLimit, sdiff] using hage
  · have due : s.oldestCaptureAged = true := by
      simpa [State.oldestCaptureAged, hr, hq, Config.ageLimit, sdiff] using hage
    refine (congrArg Host.Outcome.next (if_pos due)).trans ?_
    rw [hq]
    rfl
  · refine ⟨_, s.tracker.estimate s.count, Tracker.house_of_ne hu _, congrArg Host.Outcome.next (if_pos ?_), rfl, ?_⟩
    · simpa [State.anchorAged, hr, hu, Config.ageLimit, sdiff] using hage
    · exact (Tracker.house_of_ne (t := { s.tracker with h0 := s.tracker.estimate s.count, l0 := s.count }) hu _).trans
        (congrArg some (Tracker.estimate_anchor _))
  · refine congrArg Host.Outcome.next (if_pos ?_)
    simpa [State.holdoverDue, State.sinceAccept, hr, hl, sdiff] using hage
  · refine congrArg Host.Outcome.next (if_pos ?_)
    simpa [State.freerunDue, State.sinceAccept, hr, hh, sdiff] using hage

/-! ## Flags and purges of the tracker (R27, R193) -/

/-- The bits of a list of tracker flags. -/
def trackerFlagMask (fs : List TrackerFlag) : Byte := fs.foldr (fun f m => bitMask f.bit ||| m) 0

theorem State.raiseAll_eq (fs : List TrackerFlag) (s : State) :
    s.raiseAll fs = { s with link := { s.link with trackerFlags := s.link.trackerFlags ||| trackerFlagMask fs } } := by
  induction fs generalizing s with
  | nil => simp [State.raiseAll, trackerFlagMask]
  | cons f rest ih =>
    have h : s.raiseAll (f :: rest) = (s.raiseTracker f).raiseAll rest := rfl
    rw [h, ih]
    simp only [State.raiseTracker, trackerFlagMask, List.foldr_cons, BitVec.or_assoc]

theorem trackerFlagMask_epoch : trackerFlagMask [.epoch] = 0x04 := by decide

/-- The lanes after the purge that a tracker asks for, or not (R27). -/
def purgedLanes (lanes : LaneMap Lane) (t : Tracker) (asked : Bool) : LaneMap Lane :=
  if asked then lanes.mapId (fun _ l => l.purge t.epoch t.candidate) else lanes

theorem purgedLanes_get (lanes : LaneMap Lane) (t : Tracker) (asked : Bool) (i : LaneId) :
    (purgedLanes lanes t asked).get i = if asked then (lanes.get i).purge t.epoch t.candidate else lanes.get i := by
  cases asked with
  | true => exact LaneMap.get_mapId _ _ _
  | false => rfl

theorem State.purgeIf_eq (s : State) (asked : Bool) : s.purgeIf asked = { s with lanes := purgedLanes s.lanes s.tracker asked } := by
  cases asked <;> rfl

theorem isSome_iff_ne_none {α : Type} (o : Option α) : o.isSome = true ↔ ¬ o = none := by cases o <;> simp

/-! ## TROLE (R38 to R40) -/

theorem exec_trole_of_ready {s : State} (hs : s.Ready) (tag : Byte) (r : TroleReq) :
    exec (.trole tag r) s = .next ((roleOwner r s).1.postAnswer { type := 0x83, tag := tag, payload := (roleOwner r s).2 }) :=
  congrArg Host.Outcome.next (serve_ready (i := .trole tag r) hs rfl (roleOwner r))

/-- TROLE takes the carried epoch and leaves no candidate, whatever the roles (R38, R39, R40). -/
theorem Tracker.toRole_frame (t : Tracker) (role : Role) (epoch : Byte) (now : Time) :
    (t.toRole role epoch now).epoch = epoch ∧ (t.toRole role epoch now).candidate = none := by
  unfold Tracker.toRole
  split <;> exact ⟨rfl, rfl⟩

/-- TROLE of a known code: the tracker by `toRole`, EPOCH where the epoch changed, a purge where it or the candidate did (R27, R38 to
R40). -/
theorem exec_trole_known {s : State} (hs : s.Ready) (tag epoch code : Byte) {role : Role} {t : Tracker} (hc : readRole code = some role)
    (ht : s.tracker.toRole role epoch s.count = t) :
    ∃ u, exec (.trole tag { role := code, epoch := epoch }) s = .next u ∧ u.tracker = t ∧
      u.link = { s.link with
        trackerFlags := if epoch = s.tracker.epoch then s.link.trackerFlags else s.link.trackerFlags ||| 0x04
        outbound := s.link.outbound ++
          [{ type := 0x83, tag := tag, payload := [0x00, t.role.code, t.state.code, epoch] }] } ∧
      (∀ i, u.lanes.get i =
        if epoch = s.tracker.epoch ∧ s.tracker.candidate = none then s.lanes.get i else (s.lanes.get i).purge epoch none) ∧
      u = { s with tracker := u.tracker, link := u.link, lanes := u.lanes } := by
  obtain ⟨he, hn⟩ := Tracker.toRole_frame s.tracker role epoch s.count
  rw [ht] at he hn
  refine ⟨_, exec_trole_of_ready hs tag _, ?_⟩
  simp only [roleOwner, hc, ht, State.purgeIf_eq, State.raiseAll_eq, State.postAnswer, State.setTracker, he, hn, purgedLanes_get]
  refine ⟨trivial, ?_, fun i => ?_, trivial⟩
  · by_cases h : epoch = s.tracker.epoch
    · simp [h, trackerFlagMask, accept, ResultCode.code, put8]
    · simp [h, trackerFlagMask_epoch, accept, ResultCode.code, put8]
  · by_cases h : epoch = s.tracker.epoch <;> cases hk : s.tracker.candidate <;> simp [h]

/-- Settles O23, by `exec_trole_known` with each pair of roles. -/
theorem troleChangesTheRole : Obligations.TroleChangesTheRole := by
  intro tag epoch s hs
  refine ⟨fun hf => ?_, fun hf => ?_, fun role hrole => ?_, fun role hrole => ?_⟩
  · exact exec_trole_known hs tag epoch 1 (role := .reference) rfl (by simp only [Tracker.toRole, hf])
  · exact exec_trole_known hs tag epoch 0 (role := .follower) rfl (by simp only [Tracker.toRole, hf])
  · rcases hrole with ⟨hf, rfl⟩ | ⟨hf, rfl⟩
    · have h := exec_trole_known hs tag epoch 0 (role := .follower)
        (t := { s.tracker with candidate := none, epoch := epoch }) rfl (by simp only [Tracker.toRole, hf])
      rwa [hf] at h
    · have h := exec_trole_known hs tag epoch 1 (role := .reference)
        (t := { s.tracker with candidate := none, epoch := epoch }) rfl (by simp only [Tracker.toRole, hf])
      rwa [hf] at h
  · have h : readRole role = none := (readRole_none role).mpr hrole
    rw [exec_trole_of_ready hs]
    simp only [roleOwner, h]
    rfl

end Sys2Proof.Machine

/-! TSYNC: the named capture (R12, R22), the epoch step and the purge it asks for (R23 to R27), the staleness test (R28), and the servo
(R29 to R33). -/

namespace Sys2Proof.Machine

/-! ## From the request to the pair (R12, R21, R22) -/

/-- The named capture and every older one leave the queue (R12). -/
theorem takeCapture_of_mem {seq : Byte} {older newer : List Capture} {e : Capture} (ho : ∀ x ∈ older, x.seq ≠ seq) (he : e.seq = seq) :
    takeCapture seq (older ++ e :: newer) = some (e, newer) := by
  induction older with
  | nil => simp [takeCapture, he]
  | cons x rest ih =>
    rw [List.cons_append, takeCapture, if_neg (ho x (List.mem_cons_self ..))]
    exact ih fun y hy => ho y (List.mem_cons_of_mem _ hy)

theorem takeCapture_none {seq : Byte} {queue : List Capture} (h : ∀ x ∈ queue, x.seq ≠ seq) : takeCapture seq queue = none := by
  induction queue with
  | nil => rfl
  | cons x rest ih =>
    rw [takeCapture, if_neg (h x (List.mem_cons_self ..))]
    exact ih fun y hy => h y (List.mem_cons_of_mem _ hy)

theorem exec_tsync_of_ready {s : State} (hs : s.Ready) (tag : Byte) (r : TsyncReq) :
    exec (.tsync tag r) s = .next ((syncOwner r s).1.postAnswer { type := 0x84, tag := tag, payload := (syncOwner r s).2 }) :=
  congrArg Host.Outcome.next (serve_ready (i := .tsync tag r) hs rfl (syncOwner r))

/-- The part once a pair's capture and the older ones have left the queue (R12). -/
def State.withCaptures (s : State) (newer : List Capture) : State := { s with strobe := { s.strobe with queue := newer } }

/-- A pair with a queued capture, in the FOLLOWER role (R12, R22): its capture's time goes to the epoch step. -/
theorem exec_tsync_pair {s : State} {tag : Byte} {r : TsyncReq} {older newer : List Capture} {e : Capture} {u : State}
    {payload : List Byte} (hs : s.Ready) (hr : s.tracker.role = .follower) (hq : s.strobe.queue = older ++ e :: newer)
    (ho : ∀ x ∈ older, x.seq ≠ r.seq) (he : e.seq = r.seq)
    (hp : (s.withCaptures newer).pair e.time r.epoch r.house = (u, payload)) :
    exec (.tsync tag r) s = .next (u.postAnswer { type := 0x84, tag := tag, payload := payload }) := by
  have owner : syncOwner r s = (u, payload) := by
    rw [syncOwner, if_neg (by rw [hr]; decide), hq, takeCapture_of_mem ho he]
    exact hp
  rw [exec_tsync_of_ready hs, owner]

/-! ## The epoch step and what a pair leaves (R23 to R28) -/

/-- The part after a pair, from the tracker that the epoch step left (R27, R34). -/
def State.paired (s : State) (t : Tracker) (asked changed : Bool) (r : PairResult) : State :=
  { s with
    tracker := r.tracker
    lanes := purgedLanes s.lanes t asked
    link := { s.link with
      trackerFlags := s.link.trackerFlags ||| (if changed then 0x04 else 0) ||| trackerFlagMask r.flags } }

/-- A pair that the epoch step passes on and that is not stale (R23, R24, R28). -/
theorem State.pair_goOn {s : State} {l h : Time} {epoch : Byte} {t : Tracker} {asked changed : Bool} {r : PairResult}
    (he : s.tracker.epochStep epoch = .goOn t asked changed) (ht : t.takePair l h = some r) :
    s.pair l epoch h = (s.paired t asked changed r, 0x00 :: pairFields r.tracker r.outcome r.error) := by
  have epochFlag : trackerFlagMask (if changed then [.epoch] else []) = if changed then 0x04 else 0 := by cases changed <;> decide
  simp only [State.pair, he, ht, State.afterPair, State.raiseAll_eq, State.purgeIf_eq, epochFlag]
  rfl

/-- A pair of the candidate's epoch is a step (R25). -/
theorem State.pair_commit {s : State} {l h : Time} {epoch : Byte} {t : Tracker} (he : s.tracker.epochStep epoch = .commit t) :
    s.pair l epoch h =
      (s.paired t true true (t.stepResult l h s.tracker.state.commitFlags), 0x00 :: pairFields (t.stepTo l h) .stepped none) := by
  simp only [State.pair, he, State.afterPair, State.raiseAll_eq]
  rfl

/-- A stale pair (R28). -/
theorem State.pair_stale {s : State} {l h : Time} {epoch : Byte} {t : Tracker} {asked : Bool}
    (he : s.tracker.epochStep epoch = .goOn t asked false) (ht : t.takePair l h = none) :
    s.pair l epoch h =
      ({ s with tracker := { t with stale := satInc t.stale }, lanes := purgedLanes s.lanes t asked }, [0x22]) := by
  simp only [State.pair, he, ht, State.purgeIf_eq]
  rfl

/-- The epoch step of a pair of the current epoch: no candidate stays (R24). -/
theorem Tracker.epochStep_current {t : Tracker} (h : t.state ≠ .unlocked) :
    t.epochStep t.epoch = .goOn { t with candidate := none } t.candidate.isSome false := by
  rw [Tracker.epochStep, if_neg h, if_pos rfl]

/-- The lanes after a pair of the current epoch: purged exactly where a candidate was held (R24, R27). -/
theorem purgedLanes_current (lanes : LaneMap Lane) (t : Tracker) (i : LaneId) :
    (purgedLanes lanes { t with candidate := none } t.candidate.isSome).get i =
      if t.candidate = none then lanes.get i else (lanes.get i).purge t.epoch none := by
  rw [purgedLanes_get]
  cases t.candidate <;> rfl

/-- TSYNC's fields (R34). -/
theorem pairFields_eq (t : Tracker) (o : PairOutcome) (e : Option Int) :
    pairFields t o e = [o.code, t.state.code, t.epoch] ++ put32 (BitVec.ofInt 32 t.q) ++ optField 6 int48 e := by
  simp [pairFields, put8, int32]

/-- What a pair of the current epoch that is not stale makes of the whole part, out of UNLOCKED (R24, R27, R34). -/
theorem exec_tsync_current {tag seq : Byte} {house : Time} {older newer : List Capture} {e : Capture} {s : State} {r : PairResult}
    (hs : s.Ready) (hr : s.tracker.role = .follower) (hu : s.tracker.state ≠ .unlocked) (hq : s.strobe.queue = older ++ e :: newer)
    (ho : ∀ x ∈ older, x.seq ≠ seq) (he : e.seq = seq)
    (ht : Tracker.takePair { s.tracker with candidate := none } e.time house = some r) :
    ∃ t, exec (.tsync tag { seq := seq, epoch := s.tracker.epoch, house := house }) s = .next t ∧
      t.tracker = r.tracker ∧
      t.link = { s.link with
        trackerFlags := s.link.trackerFlags ||| trackerFlagMask r.flags
        outbound := s.link.outbound ++
          [{ type := 0x84, tag := tag,
             payload := [0x00, r.outcome.code, r.tracker.state.code, r.tracker.epoch] ++ put32 (BitVec.ofInt 32 r.tracker.q)
               ++ optField 6 int48 r.error }] } ∧
      (∀ i, t.lanes.get i =
        if s.tracker.candidate = none then s.lanes.get i else (s.lanes.get i).purge s.tracker.epoch none) ∧
      t = { s with strobe := { s.strobe with queue := newer }, tracker := t.tracker, link := t.link, lanes := t.lanes } := by
  refine ⟨_, exec_tsync_pair hs hr hq ho he (State.pair_goOn (Tracker.epochStep_current hu) ht), rfl, ?_,
    fun i => purgedLanes_current _ _ i, rfl⟩
  simp [State.paired, State.postAnswer, State.withCaptures, pairFields_eq]

/-! ## The servo (R29 to R33) -/

/-- Where house time is defined it is the estimate. -/
theorem Tracker.estimate_of_house {t : Tracker} {l h : Time} (hp : t.house? l = some h) : t.estimate l = h := by
  unfold Tracker.house? at hp
  split at hp
  · cases hp
  · exact Option.some.inj hp

/-- A pair in LOCKED or HOLDOVER that is later than the anchors (R28, R32, R33). -/
theorem Tracker.takePair_tracking {t : Tracker} {l h : Time} {d : Int} (hst : t.state = .locked ∨ t.state = .holdover)
    (hd : d = (l - t.l0).toInt) (hpos : 0 < d) : t.takePair l h = some (t.track l h d) := by
  have fresh : ¬ (l - t.l0).toInt ≤ 0 := by omega
  rcases hst with h | h <;> simp only [Tracker.takePair, h, sdiff, hd, fresh, if_false]

/-- A pair in ACQUIRING that is later than the anchors of an earlier one (R28, R31). -/
theorem Tracker.takePair_acquiring {t : Tracker} {l h : Time} {d : Int} (hst : t.state = .acquiring) (hc : 1 ≤ t.acquireCount)
    (hd : d = (l - t.l0).toInt) (hpos : 0 < d) : t.takePair l h = some (t.acquire l h d) := by
  have fresh : ¬ (l - t.l0).toInt ≤ 0 := by omega
  have begun : ¬ t.acquireCount = 0 := by omega
  simp only [Tracker.takePair, hst, sdiff, hd, fresh, begun, if_false]

/-- A pair in a state that compares with the anchors, and that is not later than they are (R28). -/
theorem Tracker.takePair_stale {t : Tracker} {l h : Time}
    (hst : (t.state = .acquiring ∧ 1 ≤ t.acquireCount) ∨ t.state = .locked ∨ t.state = .holdover)
    (hd : (l - t.l0).toInt ≤ 0) : t.takePair l h = none := by
  rcases hst with ⟨h, hc⟩ | h | h
  · have begun : ¬ t.acquireCount = 0 := by omega
    simp only [Tracker.takePair, h, sdiff, begun, hd, if_false, if_true]
  · simp only [Tracker.takePair, h, sdiff, hd, if_true]
  · simp only [Tracker.takePair, h, sdiff, hd, if_true]

/-- A pair within W (R32). -/
theorem Tracker.track_within {t : Tracker} {l h hp : Time} {d e : Int} (hest : t.estimate l = hp) (he : e = (h - hp).toInt)
    (hw : e.natAbs ≤ t.settings.w) :
    t.track l h d =
      { tracker := { t with
          q := clampRate (t.q + rateStep d e t.settings.ki), h0 := addTicks hp (offsetStep e t.settings.kp), l0 := l, outlierRun := 0,
          lastAccept := l, accepted := satInc t.accepted, state := .locked },
        flags := if t.state = .holdover then [.locked] else [], outcome := .tracked, error := some e } := by
  subst hest he
  exact if_pos hw

/-- A pair beyond W (R33). -/
theorem Tracker.track_outlier {t : Tracker} {l h hp : Time} {d e : Int} (hest : t.estimate l = hp) (he : e = (h - hp).toInt)
    (hw : t.settings.w < e.natAbs) :
    t.track l h d =
      if t.settings.nout ≤ t.outlierRun + 1 then
        { tracker := { t with outliers := satInc t.outliers, outlierRun := 0, acquireCount := 0, state := .acquiring },
          flags := [.unlock], outcome := .outlier, error := some e }
      else
        { tracker := { t with outliers := satInc t.outliers, outlierRun := t.outlierRun + 1 },
          flags := [], outcome := .outlier, error := some e } := by
  subst hest he
  exact if_neg (Nat.not_le.mpr hw)

/-- A pair within Wacq (R31). -/
theorem Tracker.acquire_within {t : Tracker} {l h hp : Time} {d e : Int} (hest : t.estimate l = hp) (he : e = (h - hp).toInt)
    (hw : e.natAbs ≤ t.settings.wacq) :
    t.acquire l h d =
      if t.settings.nacq ≤ t.acquireCount + 1 then
        { tracker := { t with
            q := clampRate (t.q + rateStep d e t.settings.kia), h0 := h, l0 := l, lastAccept := l,
            acquireCount := t.acquireCount + 1, state := .locked, outlierRun := 0 },
          flags := [.locked], outcome := .locked, error := some e }
      else
        { tracker := { t with
            q := clampRate (t.q + rateStep d e t.settings.kia), h0 := h, l0 := l, lastAccept := l,
            acquireCount := t.acquireCount + 1 },
          flags := [], outcome := .acquired, error := some e } := by
  subst hest he
  exact if_pos hw

/-- A pair beyond Wacq (R29, R31). -/
theorem Tracker.acquire_beyond {t : Tracker} {l h hp : Time} {d e : Int} (hest : t.estimate l = hp) (he : e = (h - hp).toInt)
    (hw : t.settings.wacq < e.natAbs) : t.acquire l h d = t.stepResult l h [] := by
  subst hest he
  exact if_neg (Nat.not_le.mpr hw)

/-- Settles O24, by the two sides of W and, outside it, of Nout. -/
theorem tsyncTracksAPair : Obligations.TsyncTracksAPair := by
  intro tag seq house older newer e s d err dq hp hs hr hst hq ho he hd hpos hhp herr hdq
  have hu : s.tracker.state ≠ .unlocked := by rcases hst with h | h <;> rw [h] <;> decide
  have hest : Tracker.estimate { s.tracker with candidate := none } e.time = hp := Tracker.estimate_of_house (t := s.tracker) hhp
  obtain ⟨t, hexec, ht, hlink, hlanes, hrest⟩ := exec_tsync_current (tag := tag) (house := house) hs hr hu hq ho he
    (Tracker.takePair_tracking hst hd hpos)
  by_cases hw : err.natAbs ≤ s.tracker.settings.w
  · rw [Tracker.track_within hest herr hw] at ht hlink
    have hflags : trackerFlagMask (if s.tracker.state = .holdover then [.locked] else []) =
        if s.tracker.state = .holdover then 0x80 else 0 := by
      split <;> decide
    refine ⟨t, _, _, hexec, fun _ => ⟨ht.trans ?_, hflags, rfl⟩, fun h => absurd hw (Nat.not_le.mpr h), ?_, hlanes, hrest⟩
    · subst hdq
      rfl
    · rw [ht]
      exact hlink
  · rw [Tracker.track_outlier hest herr (Nat.lt_of_not_le hw)] at ht hlink
    by_cases hn : s.tracker.settings.nout ≤ s.tracker.outlierRun + 1
    · rw [if_pos hn] at ht hlink
      refine ⟨t, _, _, hexec, fun h => absurd h hw,
        fun _ => ⟨rfl, fun h => absurd hn (Nat.not_le.mpr h), fun _ => ⟨ht, rfl⟩⟩, ?_, hlanes, hrest⟩
      rw [ht]
      exact hlink
    · rw [if_neg hn] at ht hlink
      refine ⟨t, _, _, hexec, fun h => absurd h hw, fun _ => ⟨rfl, fun _ => ⟨ht, rfl⟩, fun h => absurd h hn⟩, ?_, hlanes, hrest⟩
      rw [ht]
      exact hlink

/-- Settles O25, by the two sides of Wacq and, within it, of Nacq. -/
theorem tsyncAcquires : Obligations.TsyncAcquires := by
  intro tag seq house older newer e s d err dq hp hs hr hst hc hq ho he hd hpos hhp herr hdq
  have hu : s.tracker.state ≠ .unlocked := by rw [hst]; decide
  have hest : Tracker.estimate { s.tracker with candidate := none } e.time = hp := Tracker.estimate_of_house (t := s.tracker) hhp
  obtain ⟨t, hexec, ht, hlink, hlanes, hrest⟩ := exec_tsync_current (tag := tag) (house := house) hs hr hu hq ho he
    (Tracker.takePair_acquiring hst hc hd hpos)
  subst hdq
  by_cases hw : err.natAbs ≤ s.tracker.settings.wacq
  · rw [Tracker.acquire_within hest herr hw] at ht hlink
    by_cases hn : s.tracker.settings.nacq ≤ s.tracker.acquireCount + 1
    · rw [if_pos hn] at ht hlink
      refine ⟨t, _, _, _, hexec, fun _ => ⟨rfl, fun h => absurd hn (Nat.not_le.mpr h), fun _ => ⟨ht, rfl, rfl⟩⟩,
        fun h => absurd hw (Nat.not_le.mpr h), ?_, hlanes, hrest⟩
      rw [ht]
      exact hlink
    · rw [if_neg hn] at ht hlink
      refine ⟨t, _, _, _, hexec, fun _ => ⟨rfl, fun _ => ⟨ht.trans ?_, rfl, rfl⟩, fun h => absurd h hn⟩,
        fun h => absurd hw (Nat.not_le.mpr h), ?_, hlanes, hrest⟩
      · rfl
      · rw [ht]
        exact hlink
  · rw [Tracker.acquire_beyond hest herr (Nat.lt_of_not_le hw)] at ht hlink
    refine ⟨t, _, _, _, hexec, fun h => absurd h hw, fun _ => ⟨ht.trans ?_, rfl, rfl, rfl⟩, ?_, hlanes, hrest⟩
    · simp [Tracker.stepResult, Tracker.stepTo, hst]
    · rw [ht]
      exact hlink

/-- The epoch step in UNLOCKED adopts the pair's epoch (R23). -/
theorem Tracker.epochStep_unlocked {t : Tracker} (h : t.state = .unlocked) (epoch : Byte) :
    t.epochStep epoch = .goOn { t with epoch := epoch } (decide (epoch ≠ t.epoch)) (decide (epoch ≠ t.epoch)) := by
  rw [Tracker.epochStep, if_pos h]
  by_cases he : epoch = t.epoch
  · subst he
    simp
  · simp [he]

/-- The epoch step of a pair of the candidate's epoch (R25). -/
theorem Tracker.epochStep_candidate {t : Tracker} {epoch : Byte} (hu : t.state ≠ .unlocked) (hne : epoch ≠ t.epoch)
    (hc : t.candidate = some epoch) : t.epochStep epoch = .commit { t with epoch := epoch, candidate := none } := by
  rw [Tracker.epochStep, if_neg hu, if_neg hne]
  simp [hc]

/-- A commit sets UNLOCK out of LOCKED, HOLDOVER and FREERUN (R25). -/
theorem commitFlags_mask (st : TrackerState) :
    trackerFlagMask (.step :: st.commitFlags) =
      0x08 ||| (if decide (st = .locked ∨ st = .holdover ∨ st = .freerun) then 0x40 else 0) := by
  cases st <;> decide

/-- Settles O26: each of the four kinds of step by its epoch step. -/
theorem tsyncSteps : Obligations.TsyncSteps := by
  intro tag seq epoch house older newer e s candidate changed unlock purged hs hr hq ho he hkind
  obtain ⟨flags, hpair, hmask⟩ : ∃ flags,
      (s.withCaptures newer).pair e.time epoch house =
        ((s.withCaptures newer).paired { s.tracker with epoch := epoch, candidate := candidate } purged changed
            (Tracker.stepResult { s.tracker with epoch := epoch, candidate := candidate } e.time house flags),
          0x00 :: pairFields (Tracker.stepTo { s.tracker with epoch := epoch, candidate := candidate } e.time house) .stepped none) ∧
      trackerFlagMask (.step :: flags) = 0x08 ||| (if unlock then 0x40 else 0) := by
    rcases hkind with ⟨hst, rfl, rfl, rfl, rfl⟩ | ⟨hst, rfl, rfl, rfl, rfl, rfl⟩ | ⟨hst, hc, rfl, rfl, rfl, rfl, rfl⟩ |
      ⟨hu, hne, hcand, rfl, rfl, rfl, rfl⟩
    · exact ⟨[], State.pair_goOn (Tracker.epochStep_unlocked hst epoch) (by simp only [Tracker.takePair, hst]), by decide⟩
    · have hu : s.tracker.state ≠ .unlocked := by rw [hst]; decide
      exact ⟨[.unlock], State.pair_goOn (Tracker.epochStep_current hu) (by simp only [Tracker.takePair, hst]), by decide⟩
    · have hu : s.tracker.state ≠ .unlocked := by rw [hst]; decide
      exact ⟨[], State.pair_goOn (Tracker.epochStep_current hu) (by simp only [Tracker.takePair, hst, hc, if_true]), by decide⟩
    · exact ⟨_, State.pair_commit (Tracker.epochStep_candidate hu hne hcand), commitFlags_mask _⟩
  refine ⟨_, exec_tsync_pair hs hr hq ho he hpair, rfl, rfl, ?_, fun i => purgedLanes_get _ _ _ i, rfl⟩
  simp only [State.postAnswer, State.paired, pairFields_eq, Tracker.stepResult]
  rw [hmask, ← BitVec.or_assoc]
  rfl

/-- Settles O27: the epoch step of an epoch that is neither the current one nor the candidate. -/
theorem tsyncHoldsACandidate : Obligations.TsyncHoldsACandidate := by
  intro tag seq epoch house older newer e s hs hr hu hq ho he hne hcand
  have step : s.tracker.epochStep epoch = .pending { s.tracker with candidate := some epoch } := by
    rw [Tracker.epochStep, if_neg hu, if_neg hne]
    cases hc : s.tracker.candidate with
    | none => rfl
    | some c => exact if_neg fun h => hcand (by rw [hc, h])
  refine ⟨_, exec_tsync_pair hs hr hq ho he (u := ((s.withCaptures newer).setTracker { s.tracker with candidate := some epoch }).purge)
    (payload := 0x00 :: pairFields { s.tracker with candidate := some epoch } .pending none) ?_, ?_, fun i => ?_, ?_⟩
  · rw [State.pair]
    simp only [State.withCaptures, step]
    rfl
  · simp [State.postAnswer, State.purge, State.withCaptures, State.setTracker, pairFields_eq, optField, List.replicate]
    rfl
  · exact LaneMap.get_mapId _ _ _
  · rfl

/-- Settles O28: the role first, then the capture, then the staleness test. -/
theorem tsyncRefused : Obligations.TsyncRefused := by
  intro tag r s hs
  refine ⟨fun hr => ?_, fun hr hn => ?_, fun older newer e hr hst hq ho he hep hd => ?_⟩
  · rw [exec_tsync_of_ready hs, syncOwner, if_pos hr]
    rfl
  · rw [exec_tsync_of_ready hs, syncOwner, if_neg (by rw [hr]; decide), takeCapture_none hn]
    rfl
  · have hu : s.tracker.state ≠ .unlocked := by rcases hst with ⟨h, -⟩ | h | h <;> rw [h] <;> decide
    have step : s.tracker.epochStep r.epoch = .goOn { s.tracker with candidate := none } s.tracker.candidate.isSome false := by
      rw [hep]
      exact Tracker.epochStep_current hu
    refine ⟨_, exec_tsync_pair hs hr hq ho he (State.pair_stale step (Tracker.takePair_stale hst hd)),
      fun i => ?_, rfl⟩
    exact purgedLanes_current _ _ i

end Sys2Proof.Machine

/-! The requests to a lane but LCFG, LBIND and LFRAME: LGO and LHALT (R85, R86, R157, R158), LSTAT (R107, R167) and LFETCH (R165). -/

namespace Sys2Proof.Machine

/-- A request on a ready part: its owner's work, then its owner's answer (R189, R191). -/
theorem exec_served {i : Instr} {owner : State → State × List Byte} {s u : State} {payload p : List Byte} {ty : ReqType}
    {tag code : Byte} (hs : s.Ready) (ho : owner s = (u, payload)) (hi : i.request? = some (ty, tag, p))
    (he : exec i s = .next (s.serve i owner)) (hc : ty.code + 0x80 = code) :
    exec i s = .next (u.postAnswer { type := code, tag := tag, payload := payload }) := by
  rw [he, serve_ready hs hi, ho, State.post, hc]

/-- Some lane of a collection passes a test exactly when one of the six places does. -/
theorem LaneMap.any_toList {α : Type} (m : LaneMap α) (p : α → Bool) : m.toList.any p = true ↔ ∃ i, p (m.get i) = true := by
  rw [List.any_eq_true]
  constructor
  · rintro ⟨v, hv, hp⟩
    simp only [LaneMap.toList, List.mem_cons, List.not_mem_nil, or_false] at hv
    rcases hv with rfl | rfl | rfl | rfl | rfl | rfl
    exacts [⟨.ln0, hp⟩, ⟨.ln1, hp⟩, ⟨.ln2, hp⟩, ⟨.ln3, hp⟩, ⟨.ln4, hp⟩, ⟨.ln5, hp⟩]
  · rintro ⟨i, hp⟩
    exact ⟨_, by cases i <;> simp [LaneMap.toList, LaneMap.get], hp⟩

theorem LaneMap.any_toList_false {α : Type} {m : LaneMap α} {p : α → Bool} (h : ∀ i, p (m.get i) = false) :
    m.toList.any p = false :=
  Bool.eq_false_iff.mpr fun hany => by
    obtain ⟨i, hi⟩ := (LaneMap.any_toList m p).mp hany
    rw [h i] at hi
    cases hi

/-! ## SPC's clock watch at a start or a halt (R153) -/

theorem State.refreshWatch_idle {s : State} (h : ∀ i, (s.lanes.get i).isRunning = false) (entered : Bool) :
    s.refreshWatch entered = { s with spc := { s.spc with watch := .idle } } := by
  simp [State.refreshWatch, State.watchCondition, LaneMap.any_toList_false h]

theorem State.refreshWatch_entered {s : State} {i : LaneId} (h : (s.lanes.get i).isRunning = true) :
    s.refreshWatch true = { s with spc := { s.spc with
      watch := if s.spc.inForce.enable = true ∧ s.spc.modeInForce = ClockMode.slave then .watching s.count else .idle } } := by
  have running : s.lanes.toList.any Lane.isRunning = true := (LaneMap.any_toList _ _).mpr ⟨i, h⟩
  simp [State.refreshWatch, State.watchCondition, running]

theorem setLaneWatched_play {l : Lane} (h : l.config.direction = .play) (s : State) (i : LaneId) (entered : Bool) :
    s.setLaneWatched i l entered = s.setLane i l := by simp only [State.setLaneWatched, h]

theorem setLaneWatched_capture {l : Lane} (h : l.config.direction = .capture) (s : State) (i : LaneId) (entered : Bool) :
    s.setLaneWatched i l entered = (s.setLane i l).refreshWatch entered := by simp only [State.setLaneWatched, h]

/-- A capture lane's halt with no other RUNNING ends the watch (R153). -/
theorem setLane_refreshWatch_idle {s : State} {i : LaneId} {l : Lane} (others : ∀ j, j ≠ i → (s.lanes.get j).isRunning = false)
    (hl : l.isRunning = false) :
    (s.setLane i l).refreshWatch false = { s with lanes := s.lanes.set i l, spc := { s.spc with watch := .idle } } := by
  refine State.refreshWatch_idle (fun j => ?_) false
  by_cases h : j = i
  · subst h
    simpa using hl
  · simpa [h] using others j h

/-! ## LGO (R85, R157) -/

theorem goOwner_play {n : Byte} {i : LaneId} {s : State} {l : Lane} (hn : n.toNat = i.num)
    (hg : (s.lanes.get i).go s.count = .ok l) (hd : l.config.direction = .play) :
    goOwner n s = (s.setLane i l, [0x00, n, l.state.code, 0, 0]) := by
  simp only [goOwner, readLane_of_num hn, hg, hd, nat8, byte_of_laneNum hn, setLaneWatched_play hd]
  rfl

theorem goOwner_capture {n : Byte} {i : LaneId} {s : State} {l : Lane} (hn : n.toNat = i.num)
    (hg : (s.lanes.get i).go s.count = .ok l) (hd : l.config.direction = .capture) :
    goOwner n s = ((s.setLane i l).refreshWatch true, [0x00, n, l.state.code] ++ put16 l.runNumber) := by
  simp only [goOwner, readLane_of_num hn, hg, hd, nat8, byte_of_laneNum hn, setLaneWatched_capture hd]
  rfl

theorem goOwner_error {n : Byte} {i : LaneId} {s : State} {code : ResultCode} (hn : n.toNat = i.num)
    (hg : (s.lanes.get i).go s.count = .error code) : goOwner n s = (s, refuse code) := by
  simp only [goOwner, readLane_of_num hn, hg]

theorem Lane.go_play {l : Lane} (hd : l.config.direction = .play) (hst : l.state = .stopped ∨ l.state = .drained) (now : Time) :
    l.go now = .ok { l with state := .armed, aim := .frame } := by
  have on : l.state ≠ .off := by rcases hst with h | h <;> rw [h] <;> decide
  simp only [Lane.go, if_neg on, hd, if_pos hst]

theorem Lane.go_capture {l : Lane} (hd : l.config.direction = .capture) (hst : l.state = .stopped) (now : Time) :
    l.go now =
      if l.config.regionSize < l.config.frameSize * l.config.channels then .error .eRange
      else .ok { l with state := .running, runNumber := l.runNumber + 1, entryTime := some now, discPending := true } := by
  have on : l.state ≠ .off := by rw [hst]; decide
  simp only [Lane.go, if_neg on, hd, if_pos hst]

theorem Lane.go_refused {l : Lane} (hst : l.state ≠ .stopped) (hplay : l.config.direction = .play → l.state ≠ .drained) (now : Time) :
    l.go now = .error .eState := by
  by_cases on : l.state = .off
  · rw [Lane.go, if_pos on]
  · cases hd : l.config.direction with
    | play => simp only [Lane.go, if_neg on, hd, if_neg (not_or.mpr ⟨hst, hplay hd⟩)]
    | capture => simp only [Lane.go, if_neg on, hd, if_neg hst]

/-- Settles O36, by the lane's direction and state. -/
theorem lgoStartsALane : Obligations.LgoStartsALane := by
  refine fun tag n s hs => ⟨fun hn => ?_, fun i hn => ⟨fun hd hst => ?_, fun hd hst hfit => ?_, fun hd hst hfit => ?_,
    fun hst hplay => ?_⟩⟩
  · have owner : goOwner n s = (s, [0x12]) := by
      rw [goOwner, (readLane_none n).mpr hn]
      rfl
    exact exec_served hs owner rfl rfl rfl
  · exact exec_served hs (goOwner_play hn (Lane.go_play hd hst s.count) hd) rfl rfl rfl
  · have started := Lane.go_capture hd hst s.count
    rw [if_neg (Nat.not_lt.mpr hfit)] at started
    have owner := goOwner_capture hn started hd
    rw [State.refreshWatch_entered (i := i) (by simp [Lane.isRunning, hd])] at owner
    exact exec_served hs owner rfl rfl rfl
  · have refused := Lane.go_capture hd hst s.count
    rw [if_pos hfit] at refused
    exact exec_served hs (goOwner_error hn refused) rfl rfl rfl
  · exact exec_served hs (goOwner_error hn (Lane.go_refused hst hplay s.count)) rfl rfl rfl

/-! ## LHALT (R86, R158) -/

/-- The watermark check is a PLAY lane's (R60). -/
theorem watermark_capture {l : Lane} (h : l.config.direction = .capture) (n : Nat) : l.watermark n = l := by
  rw [Lane.watermark, h, if_neg (by decide)]

/-- A lane that lost every record crosses the low watermark alone (R60). -/
theorem watermark_emptied {l : Lane} (hd : l.config.direction = .play) (hq : l.queue = []) (before : Nat) :
    l.watermark before =
      { l with flags := l.flags ||| (if l.config.low ≤ before ∧ 0 < l.config.low then 0x10 else 0) } := by
  have none : l.buffered = 0 := by simp [Lane.buffered, hq]
  rw [watermark_eq l before hd, none]
  simp

theorem flushQueue_queue (l : Lane) : l.flushQueue.queue = [] := by
  simp [Lane.flushQueue, releaseWhere_queue]

/-- A release and the state and entry time, which it neither reads nor writes, commute (R71, R158). -/
theorem releaseWhere_stopped (l : Lane) (p : FrameRecord → Bool) :
    ({ l with state := .stopped, entryTime := none } : Lane).releaseWhere p =
      { l.releaseWhere p with state := .stopped, entryTime := none } := by
  have key : ∀ (fs : List FrameRecord) (x : Lane),
      fs.foldl (fun m f => m.releaseAlloc f.offset) ({ x with state := .stopped, entryTime := none } : Lane) =
        { fs.foldl (fun m f => m.releaseAlloc f.offset) x with state := .stopped, entryTime := none } := by
    intro fs
    induction fs with
    | nil => exact fun _ => rfl
    | cons f fs ih => exact fun x => ih (x.releaseAlloc f.offset)
  simp only [Lane.releaseWhere, key]

/-- Giving up the frame being filled counts (R158, R164). -/
theorem discardFilling_counters (l : Lane) :
    l.discardFilling.captureCounters = { l.captureCounters with
      discards := if l.filling = none then l.captureCounters.discards else min (l.captureCounters.discards + 1) 65535 } := by
  unfold Lane.discardFilling
  cases h : l.filling with
  | none => simp
  | some f => simp [satInc]

/-- A flush code (R200). -/
theorem readBool_of_flush {b : Byte} {flush : Bool} (hf : (b = 0 ∧ flush = false) ∨ (b = 1 ∧ flush = true)) :
    readBool b = some flush := by rcases hf with ⟨rfl, rfl⟩ | ⟨rfl, rfl⟩ <;> rfl

theorem haltOwner_play {r : LhaltReq} {i : LaneId} {flush : Bool} {s : State} {l : Lane} (hn : r.lane.toNat = i.num)
    (hf : readBool r.flush = some flush) (on : (s.lanes.get i).state ≠ .off) (hd : (s.lanes.get i).config.direction = .play)
    (hl : ((s.lanes.get i).haltPlay flush).watermark (s.lanes.get i).buffered = l) (hp : l.config.direction = .play)
    {st : LaneState} (hst : l.state = st) : haltOwner r s = (s.setLane i l, [0x00, r.lane, st.code]) := by
  subst hst
  simp only [haltOwner, readLane_of_num hn, hf, Lane.halting, if_neg on, hd, hl, nat8, byte_of_laneNum hn, setLaneWatched_play hp]
  rfl

theorem haltOwner_capture {r : LhaltReq} {i : LaneId} {flush : Bool} {s : State} {l : Lane} (hn : r.lane.toNat = i.num)
    (hf : readBool r.flush = some flush) (on : (s.lanes.get i).state ≠ .off) (hd : (s.lanes.get i).config.direction = .capture)
    (hl : (s.lanes.get i).haltCapture flush = l) (hp : l.config.direction = .capture) {st : LaneState} (hst : l.state = st) :
    haltOwner r s = ((s.setLane i l).refreshWatch false, [0x00, r.lane, st.code]) := by
  subst hst
  simp only [haltOwner, readLane_of_num hn, hf, Lane.halting, if_neg on, hd, hl, nat8, byte_of_laneNum hn,
    watermark_capture hp, setLaneWatched_capture hp]
  rfl

/-- A flush of a lane leaves its configuration and state (R71). -/
theorem flushQueue_frame (l : Lane) :
    l.flushQueue = { l with
      allocs := l.flushQueue.allocs, reclaimOffset := l.flushQueue.reclaimOffset, queue := [], cursor := l.flushQueue.cursor } := by
  have h := (releaseWhere_released l (fun _ => true)).frame
  rw [show (l.releaseWhere fun _ => true).queue = [] from flushQueue_queue l] at h
  exact h

/-- What a flush, or none, leaves (R71). -/
theorem flushed_frame {l m : Lane} {flush : Bool} (hm : m = if flush = true then l.releaseWhere (fun _ => true) else l) :
    m = { l with
      allocs := m.allocs, reclaimOffset := m.reclaimOffset, queue := if flush = true then [] else l.queue, cursor := m.cursor } := by
  cases flush with
  | false => exact hm ▸ rfl
  | true =>
    have hm : m = l.flushQueue := hm
    rw [hm]
    exact flushQueue_frame l

theorem flushed_kept {l m : Lane} {flush : Bool} (hm : m = if flush = true then l.releaseWhere (fun _ => true) else l) :
    m.config = l.config ∧ m.state = l.state := by
  rw [flushed_frame hm]
  exact ⟨rfl, rfl⟩

/-- Settles O37, by the lane's direction and state. -/
theorem lhaltStopsALane : Obligations.LhaltStopsALane := by
  intro tag r s hs
  refine ⟨fun hbad => ?_, fun i flush hn hflush => ?_⟩
  · have owner : haltOwner r s = (s, [0x12]) := by
      rcases hbad with h | h
      · rw [haltOwner, (readLane_none _).mpr h]
        rfl
      · rw [haltOwner, (readBool_none _).mpr h]
        cases readLane r.lane <;> rfl
    exact exec_served hs owner rfl rfl rfl
  have hf := readBool_of_flush hflush
  refine ⟨fun hd on hstopped hstopping => ?_, fun h hd hst hh => ?_, fun m hst hm => ⟨fun hd => ?_, fun hd hrun => ?_⟩,
    fun hd hst hrun => ?_, fun off => ?_⟩
  · have halted : (s.lanes.get i).haltPlay flush = { s.lanes.get i with
        state := .stopping,
        halt := some { fromCursor := decide ((s.lanes.get i).state = LaneState.playing), flush := flush } } := by
      rw [Lane.haltPlay, if_neg hstopped, if_neg hstopping]
      rfl
    have kept := watermark_same ((s.lanes.get i).haltPlay flush) (s.lanes.get i).buffered (by rw [halted]; rfl)
    exact exec_served hs (haltOwner_play hn hf on hd (kept.trans halted) hd rfl) rfl rfl rfl
  · have halted : (s.lanes.get i).haltPlay flush = { s.lanes.get i with
        halt := some { fromCursor := h.fromCursor, flush := h.flush || flush } } := by
      rw [Lane.haltPlay, if_neg (by rw [hst]; decide), if_pos hst, hh]
      rfl
    have kept := watermark_same ((s.lanes.get i).haltPlay flush) (s.lanes.get i).buffered (by rw [halted]; rfl)
    exact exec_served hs (haltOwner_play hn hf (by rw [hst]; decide) hd (kept.trans halted) hd hst) rfl rfl rfl
  · have halted : ((s.lanes.get i).haltPlay flush).watermark (s.lanes.get i).buffered = { m with
        flags := (s.lanes.get i).flags ||| (if flush = true ∧ (s.lanes.get i).config.low ≤ (s.lanes.get i).buffered ∧
          0 < (s.lanes.get i).config.low then 0x10 else 0) } := by
      rw [Lane.haltPlay, if_pos hst]
      cases flush with
      | false =>
        subst hm
        simp [watermark_same]
      | true =>
        have flushed := flushQueue_frame (s.lanes.get i)
        have hm : m = (s.lanes.get i).flushQueue := hm
        rw [← hm] at flushed ⊢
        simp only [if_true, true_and]
        rw [watermark_emptied (by rw [flushed]; exact hd) (by rw [flushed])]
        rw [flushed]
    exact exec_served hs (haltOwner_play hn hf (by rw [hst]; decide) hd halted
      ((congrArg LaneConfig.direction (flushed_kept hm).1).trans hd) ((flushed_kept hm).2.trans hst)) rfl rfl rfl
  · have halted : (s.lanes.get i).haltCapture flush = m := by
      rw [hm, Lane.haltCapture, hst]
      rfl
    have owner := haltOwner_capture hn hf (by rw [hst]; decide) hd halted
      ((congrArg LaneConfig.direction (flushed_kept hm).1).trans hd) ((flushed_kept hm).2.trans hst)
    have idle : m.isRunning = false := by simp [Lane.isRunning, (flushed_kept hm).2, hst]
    rw [setLane_refreshWatch_idle (fun j _ => hrun j) idle] at owner
    exact exec_served hs owner rfl rfl rfl
  · have discarded := discardFilling_frame (s.lanes.get i)
    have counted := discardFilling_counters (s.lanes.get i)
    obtain ⟨m, hm⟩ : ∃ m, m = (if flush = true then (s.lanes.get i).discardFilling.releaseWhere (fun _ => true)
      else (s.lanes.get i).discardFilling) := ⟨_, rfl⟩
    have halted : (s.lanes.get i).haltCapture flush = { m with state := .stopped, entryTime := none } := by
      rw [Lane.haltCapture, hst, hm]
      cases flush with
      | false => rfl
      | true => exact releaseWhere_stopped _ _
    have frame := flushed_frame hm
    rw [discarded, counted] at frame
    refine ⟨{ m with state := .stopped, entryTime := none }, m, hm, rfl, rfl, ?_, ?_, ?_, ?_, ?_⟩
    · rw [frame]
    · rw [frame]
    · rw [frame]
    · rw [frame]
    · have hd' : m.config.direction = .capture := by rw [frame]; exact hd
      have owner := haltOwner_capture hn hf (by rw [hst]; decide) hd halted hd' rfl
      rw [setLane_refreshWatch_idle hrun (by simp [Lane.isRunning])] at owner
      exact exec_served hs owner rfl rfl rfl
  · have owner : haltOwner r s = (s, [0x13]) := by
      simp only [haltOwner, readLane_of_num hn, hf, Lane.halting, if_pos off]
      rfl
    exact exec_served hs owner rfl rfl rfl


/-! ## LSTAT (R107, R167) -/

theorem nat8_length (n : Nat) : (nat8 n).length = 1 := rfl

theorem nat16_length (n : Nat) : (nat16 n).length = 2 := rfl

theorem nat32_length (n : Nat) : (nat32 n).length = 4 := rfl

theorem int32_length (x : Int) : (int32 x).length = 4 := rfl

theorem int48_length (x : Int) : (int48 x).length = 6 := rfl

theorem bool8_length (b : Bool) : (bool8 b).length = 1 := rfl

theorem optField_length {α : Type} {width : Nat} {enc : α → List Byte} (h : ∀ v, (enc v).length = width) (o : Option α) :
    (optField width enc o).length = width + 1 := by
  cases o with
  | none => simp [optField]
  | some v => simp [optField, h]

theorem configFields_length (i : LaneId) (l : Lane) : (configFields i l).length = 36 := by
  simp only [configFields, List.length_append, nat8_length, nat16_length, nat32_length, int32_length, bool8_length, put8_length]

theorem bindingFields_length (l : Lane) : l.bindingFields.length = 12 := by
  simp only [Lane.bindingFields, List.length_append, optField_length put16_length, put48_length]

theorem cursorFields_length (l : Lane) : l.cursorFields.length = 7 := by
  unfold Lane.cursorFields
  split <;> rfl

theorem aimFields_length (a : Aim) : a.fields.length = 7 := by cases a <;> rfl

theorem playCounters_length (c : PlayCounters) : c.fields.length = 18 := by
  simp only [PlayCounters.fields, List.length_append, nat16_length]

theorem captureCounters_length (c : CaptureCounters) : c.fields.length = 18 := by
  simp only [CaptureCounters.fields, List.length_append, nat16_length, List.length_replicate]

theorem playStatFields_length (l : Lane) : (playStatFields l).length = 81 := by
  simp only [playStatFields, List.length_append, put8_length, put16_length, nat8_length, nat32_length, List.length_replicate,
    bindingFields_length, cursorFields_length, aimFields_length, playCounters_length, optField_length put8_length,
    optField_length int48_length, optField_length nat32_length]

theorem captureStatFields_length (l : Lane) : (captureStatFields l).length = 81 := by
  simp only [captureStatFields, List.length_append, put8_length, put16_length, nat8_length, nat32_length, List.length_replicate,
    captureCounters_length, optField_length nat16_length]

/-- The four counts of a lane's report (R107, R167). -/
def laneCounts (l : Lane) : List Byte :=
  BitVec.ofNat 8 l.held :: (put32 (BitVec.ofNat 32 l.buffered) ++ put32 (BitVec.ofNat 32 l.config.regionSize)
    ++ put32 (BitVec.ofNat 32 l.fill))

/-- A PLAY lane's report, its optional fields given apart (R107). -/
theorem playStatFields_eq {l : Lane} {current switch cursor aim tag error step : List Byte}
    (hcurrent : optField 2 put16 l.current = current)
    (hswitch : optField 2 put16 (l.switch.map Switch.stream) ++ put48 ((l.switch.map Switch.time).getD 0) = switch)
    (hcursor : l.cursorFields = cursor) (haim : l.aim.fields = aim) (htag : optField 1 put8 l.lastTag = tag)
    (herror : optField 6 int48 l.lastError = error) (hstep : optField 4 nat32 l.lastStep = step) :
    playStatFields l = l.state.code :: (current ++ switch ++ laneCounts l ++ cursor ++ aim
      ++ BitVec.ofNat 8 l.actions.length :: (tag
        ++ put16 (BitVec.ofNat 16 l.counters.starts) ++ put16 (BitVec.ofNat 16 l.counters.lateDrops)
        ++ put16 (BitVec.ofNat 16 l.counters.gaps) ++ put16 (BitVec.ofNat 16 l.counters.overlaps)
        ++ put16 (BitVec.ofNat 16 l.counters.starvations) ++ put16 (BitVec.ofNat 16 l.counters.holds)
        ++ put16 (BitVec.ofNat 16 l.counters.slips) ++ put16 (BitVec.ofNat 16 l.counters.slipDrops)
        ++ put16 (BitVec.ofNat 16 l.counters.purges) ++ List.replicate 8 0 ++ error ++ step)) := by
  have zeros : put16 0 ++ (put16 0 ++ (put8 0 ++ List.replicate 3 0)) = List.replicate 8 (0 : Byte) := rfl
  subst hcurrent hswitch hcursor haim htag herror hstep
  rw [← zeros]
  simp only [playStatFields, Lane.bindingFields, laneCounts, PlayCounters.fields, nat8, nat16, nat32, List.append_assoc]
  rfl

/-- A CAPTURE lane's report, its optional field given apart (R167). -/
theorem captureStatFields_eq {l : Lane} {written : List Byte} (hwritten : optField 2 nat16 (l.filling.map Filling.written) = written) :
    captureStatFields l = l.state.code :: (List.replicate 12 0 ++ laneCounts l ++ List.replicate 14 0
      ++ BitVec.ofNat 8 l.actions.length :: ([0, 0]
        ++ put16 (BitVec.ofNat 16 l.captureCounters.closed) ++ put16 (BitVec.ofNat 16 l.captureCounters.overruns)
        ++ put16 (BitVec.ofNat 16 l.captureCounters.discards) ++ List.replicate 12 0
        ++ put16 l.runNumber ++ put16 l.lastSeq ++ BitVec.ofNat 8 l.queue.length :: (written ++ List.replicate 12 0))) := by
  subst hwritten
  simp only [captureStatFields, laneCounts, CaptureCounters.fields, nat8, nat16, nat32, List.append_assoc]
  rfl

/-- Settles O38: the report by the lane's direction, its length by that of its two parts. -/
theorem lstatReportsTheLane : Obligations.LstatReportsTheLane := by
  intro tag n s hs
  refine ⟨fun hn => ?_, fun i l config counts hn hl hconfig hcounts => ?_⟩
  · have owner : statOwner n s = (s, [0x12]) := by
      rw [statOwner, (readLane_none n).mpr hn]
      rfl
    exact exec_served hs owner rfl rfl rfl
  have configEq : configFields i l = config := by
    subst hconfig
    simp [configFields, nat8, nat16, nat32, int32, bool8, put8, byte_of_laneNum hn, Lane.enabled]
  have owner : statOwner n s = (s, 0x00 :: (configFields i l ++ (match l.config.direction with
      | .play => playStatFields l
      | .capture => captureStatFields l))) := by
    simp only [statOwner, readLane_of_num hn, hl]
    rfl
  refine ⟨_, exec_served hs owner rfl rfl rfl, ?_, fun hd => ?_, fun hd => ?_⟩
  · cases l.config.direction <;> simp [configFields_length, playStatFields_length, captureStatFields_length]
  · simp only [hd, configEq]
    subst hcounts
    refine congrArg (fun fields => 0x00 :: (config ++ fields)) (playStatFields_eq ?_ ?_ ?_ ?_ ?_ ?_ ?_)
    · cases l.current <;> rfl
    · cases l.switch <;> rfl
    · rw [Lane.cursorFields]
      cases l.cursor <;> cases l.queue <;> rfl
    · cases l.aim <;> rfl
    · cases l.lastTag <;> rfl
    · cases l.lastError <;> rfl
    · cases l.lastStep <;> rfl
  · simp only [hd, configEq]
    subst hcounts
    refine congrArg (fun fields => 0x00 :: (config ++ fields)) (captureStatFields_eq ?_)
    cases l.filling <;> rfl

/-! ## LFETCH (R165) -/

/-- The three bytes of a stored sample are the low three of its word (R53, R165). -/
theorem sampleBytes_word (w : Word) :
    sampleBytes (wordSample w) = [w.extractLsb' 16 8, w.extractLsb' 8 8, w.extractLsb' 0 8] := by
  have low : BitVec.ofInt 24 w.toInt = w.setWidth 24 := BitVec.signExtend_eq_setWidth_of_le w (by decide)
  have part : ∀ k, k + 8 ≤ 24 → (w.setWidth 24).extractLsb' k 8 = w.extractLsb' k 8 := by
    intro k hk
    apply BitVec.eq_of_getLsbD_eq
    intro j hj
    simp only [BitVec.getLsbD_extractLsb', BitVec.getLsbD_setWidth]
    simp [show k + j < 24 by omega]
  rw [sampleBytes, wordSample, low, part 16 (by decide), part 8 (by decide), part 0 (by decide)]

/-- Releasing the head of a queue (R71). -/
theorem releaseHead_cons {l : Lane} {f : FrameRecord} {rest : List FrameRecord} (hq : l.queue = f :: rest) :
    l.releaseHead = { l with
      queue := rest
      allocs := (l.releaseAlloc f.offset).allocs
      reclaimOffset := (l.releaseAlloc f.offset).reclaimOffset
      cursor := if f.status = .playing then none else l.cursor } := by
  simp only [Lane.releaseHead, hq]
  rw [(releaseAlloc_released l f.offset).frame]

/-- A fetched frame's fields, its time given apart (R165). -/
theorem fetchFields_eq {store : Memory} {c : LaneConfig} {f : FrameRecord} {remaining : Nat} {time : List Byte}
    (htime : optField 6 put48 f.pts = time) :
    fetchFields store c f remaining = put16 f.stream ++ put16 f.seq ++ [f.epoch] ++ time ++ put16 (BitVec.ofNat 16 f.samples)
      ++ [BitVec.ofNat 8 f.channels, if f.disc then 1 else 0, BitVec.ofNat 8 remaining]
      ++ ((List.range (f.samples * f.channels)).map (fun k =>
          [(store.read (c.wordAt (f.offset + k))).extractLsb' 16 8, (store.read (c.wordAt (f.offset + k))).extractLsb' 8 8,
            (store.read (c.wordAt (f.offset + k))).extractLsb' 0 8])).flatten := by
  subst htime
  simp [fetchFields, frameWordsOf, FrameRecord.words, sampleBytes_word, Function.comp_def, put8, nat8, nat16, bool8]

/-- Settles O39, by the lane's direction, its state and its queue. -/
theorem lfetchReturnsTheOldestFrame : Obligations.LfetchReturnsTheOldestFrame := by
  refine fun tag n s hs => ⟨fun hn => ?_, fun i hn => ⟨fun hd on f rest hq => ?_, fun hd on hq => ?_, fun hno => ?_⟩⟩
  · have owner : fetchOwner n s = (s, [0x12]) := by
      rw [fetchOwner, (readLane_none n).mpr hn]
      rfl
    exact exec_served hs owner rfl rfl rfl
  · have owner : fetchOwner n s = (s.setLane i (s.lanes.get i).releaseHead,
        0x00 :: fetchFields s.store (s.lanes.get i).config f rest.length) := by
      simp [fetchOwner, readLane_of_num hn, Lane.enabled, on, hd, hq, accept, ResultCode.code]
    rw [releaseHead_cons hq] at owner
    refine ⟨_, rfl, (exec_served hs owner rfl rfl rfl).trans ?_⟩
    refine congrArg (fun fields => Host.Outcome.next (State.postAnswer _ { type := 0x96, tag := tag, payload := 0x00 :: fields }))
      (fetchFields_eq ?_)
    cases f.pts <;> rfl
  · have owner : fetchOwner n s = (s, [0x3B]) := by
      simp [fetchOwner, readLane_of_num hn, Lane.enabled, on, hd, hq]
      rfl
    exact exec_served hs owner rfl rfl rfl
  · have owner : fetchOwner n s = (s, [0x13]) := by
      rcases hno with h | h
      · simp [fetchOwner, readLane_of_num hn, Lane.enabled, h]
        rfl
      · simp [fetchOwner, readLane_of_num hn, Lane.enabled, h]
        rfl
    exact exec_served hs owner rfl rfl rfl

end Sys2Proof.Machine

/-! The requests to the mixer, the ports and the general lines, MGAIN, MDUCK, PCFG, GSET and GREAD (R131, R132, R137, R154, R180 to R183),
and the loss of SPC's clock (R153, R164). -/

namespace Sys2Proof.Machine

theorem put16_toNat (v : BitVec 16) : put16 (BitVec.ofNat 16 v.toNat) = put16 v := by
  rw [BitVec.ofNat_toNat, BitVec.setWidth_eq]

/-! ## MGAIN (R131, R132) -/

theorem Mixer.channel_setChannel_same (m : Mixer) (i : LaneId) (p : OutPort) (c : Channel) :
    (m.setChannel i p c).channel i p = c := by
  simp [Mixer.setChannel, Mixer.channel]

theorem Mixer.channel_setChannel_other (m : Mixer) {i j : LaneId} {p q : OutPort} (c : Channel) (h : j ≠ i ∨ q ≠ p) :
    (m.setChannel i p c).channel j q = m.channel j q := by
  by_cases hj : j = i
  · subst hj
    simp [Mixer.setChannel, Mixer.channel, h.resolve_left (fun k => k rfl)]
  · simp [Mixer.setChannel, Mixer.channel, hj]

theorem gainOwner_ok {r : MgainReq} {i : LaneId} {p : OutPort} {m : ChannelMap} (hi : r.lane.toNat = i.num)
    (hp : outPortCode p = r.port) (hm : m.code = r.map) (s : State) :
    gainOwner r s =
      ({ s with
          mixer := s.mixer.setChannel i p
            { map := m, current := (s.mixer.channel i p).current, start := (s.mixer.channel i p).current, target := r.gain.toNat,
              n := max 1 r.ramp.toNat, b := 0 } },
        [if r.ramp = 0 then 0x01 else 0x00, r.lane, r.port, r.map] ++ put16 (BitVec.ofNat 16 (s.mixer.channel i p).current)
          ++ put16 r.gain ++ [BitVec.ofNat 8 (max 1 r.ramp.toNat), BitVec.ofNat 8 (max 1 r.ramp.toNat)]) := by
  rw [gainOwner, ← hp, ← hm, readOutPort_code, readMap_code, readLane_of_num hi]
  simp only [gainFields, Channel.beginRamp, nat8, nat16, put8, byte_of_laneNum hi, put16_toNat, Nat.sub_zero]
  simp [acceptOr, ResultCode.code]

/-! ## MDUCK (R137) -/

theorem min_eq_iff_not_lt (x m : Nat) : min x m = x ↔ ¬ m < x := by omega

theorem max_one_eq_iff (x : Byte) : max 1 x.toNat = x.toNat ↔ ¬ x = 0 := by
  have zero : x = 0 ↔ x.toNat = 0 := ⟨fun h => by rw [h]; rfl, fun h => BitVec.eq_of_toNat_eq h⟩
  rw [zero]
  omega

theorem nat8_toNat (b : Byte) : nat8 b.toNat = [b] := by simp [nat8, put8]

theorem duckClasses_known (r : MduckReq) :
    (duckClasses r).toList.any (fun c => decide (3 < c)) = true ↔
      3 < r.class0.toNat ∨ 3 < r.class1.toNat ∨ 3 < r.class2.toNat ∨ 3 < r.class3.toNat ∨ 3 < r.class4.toNat ∨
        3 < r.class5.toNat := by
  simp [duckClasses, LaneMap.toList]

theorem laneList_map {α β : Type} (m : LaneMap α) (f : α → β) : LaneId.list.map (fun i => f (m.get i)) = m.toList.map f := rfl

/-- MDUCK's settings, each clamped (R137). -/
def Mixer.ducked (m : Mixer) (r : MduckReq) : Mixer :=
  { m with
    d1 := min r.d1.toNat 32768, d2 := min r.d2.toNat 32768, d3 := min r.d3.toNat 32768,
    attack := max 1 r.attack.toNat, release := max 1 r.release.toNat,
    duckClass := ⟨r.class0.toNat, r.class1.toNat, r.class2.toNat, r.class3.toNat, r.class4.toNat, r.class5.toNat⟩ }

theorem duckOwner_ok {r : MduckReq} (h : ¬ (duckClasses r).toList.any (fun c => decide (3 < c)) = true) (s : State) :
    duckOwner r s =
      ({ s with mixer := s.mixer.ducked r },
        (if (s.mixer.ducked r).d1 = r.d1.toNat ∧ (s.mixer.ducked r).d2 = r.d2.toNat ∧ (s.mixer.ducked r).d3 = r.d3.toNat ∧
            (s.mixer.ducked r).attack = r.attack.toNat ∧ (s.mixer.ducked r).release = r.release.toNat then 0x00 else 0x01) ::
          duckFields (s.mixer.ducked r)) := by
  rw [duckOwner, if_neg h]
  simp only [Mixer.ducked, acceptOr, min_eq_iff_not_lt, max_one_eq_iff, ← not_or, ite_not, Bool.or_eq_true, decide_eq_true_eq,
    beq_iff_eq, or_assoc]
  rfl

/-- Settles O40: MGAIN by its readers, MDUCK by its classes. -/
theorem mgainAndMduck : Obligations.MgainAndMduck := by
  refine ⟨fun tag r i p m s n hs hi hp hm hn => ?_, fun tag r s hs hbad => ?_, fun tag r s hs => ⟨fun hok => ?_, fun hbad => ?_⟩⟩
  · subst hn
    refine ⟨_, exec_served hs (gainOwner_ok hi hp hm s) rfl rfl rfl, Mixer.channel_setChannel_same .., fun j q h => ?_, rfl⟩
    exact Mixer.channel_setChannel_other _ _ h
  · have owner : gainOwner r s = (s, [0x12]) := by
      rcases hbad with h | h | h
      · rw [gainOwner, (readLane_none _).mpr h]
        rfl
      · rw [gainOwner, (readOutPort_none _).mpr h]
        cases readLane r.lane <;> rfl
      · rw [gainOwner, (readMap_none _).mpr h]
        cases readLane r.lane <;> cases readOutPort r.port <;> rfl
    exact exec_served hs owner rfl rfl rfl
  · have known : ¬ (duckClasses r).toList.any (fun c => decide (3 < c)) = true := by
      rw [duckClasses_known]
      omega
    refine ⟨_, _, exec_served hs (duckOwner_ok known s) rfl rfl rfl, rfl, rfl, ?_⟩
    simp only [duckFields, Mixer.ducked, LaneMap.toList, List.map, nat8_toNat]
    rfl
  · have owner : duckOwner r s = (s, [0x12]) := by
      rw [duckOwner, if_pos ((duckClasses_known r).mpr hbad)]
      rfl
    exact exec_served hs owner rfl rfl rfl

/-! ## PCFG (R154) -/

theorem carriedFormat_none {r : PcfgReq} (h : 1 < r.enable.toNat ∨ (r.width ≠ 16 ∧ r.width ≠ 24) ∨ 1 < r.polarity.toNat ∨
    1 < r.alignment.toNat) : carriedFormat r = none := by
  unfold carriedFormat
  rcases h with h | h | h | h
  · rw [(readBool_none _).mpr h]
  · rw [(readWidth_none _).mpr h]
    cases readBool r.enable <;> rfl
  · rw [(readWsPolarity_none _).mpr h]
    cases readBool r.enable <;> cases readWidth r.width <;> rfl
  · rw [(readAlignment_none _).mpr h]
    cases readBool r.enable <;> cases readWidth r.width <;> cases readWsPolarity r.polarity <;> rfl

theorem carriedFormat_of_codes {r : PcfgReq} {f : PortFormat} (he : r.enable = (if f.enable then 1 else 0))
    (hw : f.width.code = r.width) (hp : f.polarity.code = r.polarity) (ha : f.alignment.code = r.alignment) :
    carriedFormat r = some f := by
  rw [carriedFormat, he, ← hw, ← hp, ← ha, readBool_code, readWidth_code, readWsPolarity_code, readAlignment_code]

theorem formatFields_of_codes {r : PcfgReq} {f : PortFormat} (he : r.enable = (if f.enable then 1 else 0))
    (hw : f.width.code = r.width) (hp : f.polarity.code = r.polarity) (ha : f.alignment.code = r.alignment) :
    formatFields f = [r.enable, r.width, r.polarity, r.alignment] := by
  rw [formatFields, hw, hp, ha, bool8, ← he]
  rfl

theorem outPortCode_le (p : OutPort) : (outPortCode p).toNat ≤ 1 := by cases p <;> decide

/-- PCFG's refusals with E_RANGE (R154, R200; log 34). -/
theorem portOwner_refused {r : PcfgReq} (h : carriedFormat r = none ∨ 2 < r.port.toNat ∨
    (1 < r.clockMode.toNat ∧ (r.port = 2 ∨ Config.refusesUnusedClockMode = true))) (s : State) :
    portOwner r s = (s, [0x12]) := by
  unfold portOwner
  cases hf : carriedFormat r with
  | none => rfl
  | some f =>
    have hport := h.resolve_left (by rw [hf]; simp)
    cases hp : readOutPort r.port with
    | some p =>
      have le : r.port.toNat ≤ 1 := Nat.not_lt.mp fun k => by rw [(readOutPort_none _).mpr k] at hp; cases hp
      obtain ⟨hmode, hfree⟩ := hport.resolve_left (by omega)
      have two : r.port ≠ 2 := fun k => by rw [k] at le; exact absurd le (by decide)
      simp only [configOutPort, (readClockMode_none _).mpr hmode, hfree.resolve_left two]
      rfl
    | none =>
      by_cases two : r.port = 2
      · have hmode := (hport.resolve_left (by rw [two]; decide)).1
        simp only [if_pos two, configInPort, (readClockMode_none _).mpr hmode]
        rfl
      · simp only [if_neg two]
        rfl

/-- PCFG of SPC with known codes (R154). -/
theorem portOwner_spc {r : PcfgReq} {m : ClockMode} {f : PortFormat} (hport : r.port = 2) (hmode : m.code = r.clockMode)
    (hf : carriedFormat r = some f) (s : State) :
    portOwner r s =
      if s.lanes.toList.any Lane.isRunning && (f != s.spc.format || m != s.spc.mode) then (s, refuse .eState)
      else ({ s with spc := { s.spc with format := f, mode := m } }, accept (inPortFields { s.spc with format := f, mode := m })) := by
  rw [portOwner, hf, hport, (readOutPort_none 2).mpr (by decide)]
  simp only [if_true, configInPort, ← hmode, readClockMode_code]

/-- Settles O41: the refusals by what cannot be read, then SPA and SPB, then SPC. -/
theorem pcfgStoresTheConfiguration : Obligations.PcfgStoresTheConfiguration := by
  refine fun tag r s hs => ⟨fun hbad => ?_, fun f he hw hp ha => ⟨fun p hport hmode => ?_, fun m hport hmode => ⟨fun hrun => ?_,
    fun hrun hne => ?_⟩⟩⟩
  · have unread : carriedFormat r = none ∨ 2 < r.port.toNat ∨
        (1 < r.clockMode.toNat ∧ (r.port = 2 ∨ Config.refusesUnusedClockMode = true)) := by
      rcases hbad with h | h | h | h | h | h
      exacts [.inr (.inl h), .inl (carriedFormat_none (.inl h)), .inl (carriedFormat_none (.inr (.inl h))),
        .inl (carriedFormat_none (.inr (.inr (.inl h)))), .inl (carriedFormat_none (.inr (.inr (.inr h)))), .inr (.inr h)]
    exact exec_served hs (portOwner_refused unread s) rfl rfl rfl
  · have owner : portOwner r s = ({ s with
          ports := s.ports.set p { s.ports.get p with format := f, latency := r.latency.toNat }
          mixer := { s.mixer with master := s.mixer.master.set p r.master.toNat } },
        [0x00, r.port, r.enable, r.width, r.polarity, r.alignment] ++ put16 r.latency ++ put16 r.master ++ [0]
          ++ put16 (BitVec.ofNat 16 (s.mixer.clips.get p)) ++ put16 (BitVec.ofNat 16 (s.ports.get p).hang)
          ++ [if (s.ports.get p).active then 1 else 0, 0]) := by
      have mode : ((readClockMode r.clockMode).isNone && Config.refusesUnusedClockMode) = false := by
        rcases hmode with h | h
        · cases hm : readClockMode r.clockMode with
          | none => exact absurd ((readClockMode_none _).mp hm) (by omega)
          | some m => rfl
        · rw [h, Bool.and_false]
      rw [portOwner, carriedFormat_of_codes he hw hp ha]
      simp only [← hport, readOutPort_code, configOutPort, mode, Bool.false_eq_true, if_false, outPortFields,
        formatFields_of_codes he hw hp ha, PortPair.get_set_same, nat16, put16_toNat]
      rfl
    exact exec_served hs owner rfl rfl rfl
  · have owner : portOwner r s = ({ s with spc := { s.spc with format := f, mode := m } },
        [0x00, 2, r.enable, r.width, r.polarity, r.alignment, 0, 0, 0, 0, r.clockMode, 0, 0, 0, 0, 0, s.spc.watch.code]) := by
      rw [portOwner_spc hport hmode (carriedFormat_of_codes he hw hp ha), LaneMap.any_toList_false hrun]
      simp only [Bool.false_and, Bool.false_eq_true, if_false, inPortFields, formatFields_of_codes he hw hp ha, hmode]
      rfl
    exact exec_served hs owner rfl rfl rfl
  · have owner : portOwner r s = (s, [0x13]) := by
      have changed : (f != s.spc.format || m != s.spc.mode) = true := by simpa using hne
      rw [portOwner_spc hport hmode (carriedFormat_of_codes he hw hp ha), (LaneMap.any_toList _ _).mpr hrun, changed]
      rfl
    exact exec_served hs owner rfl rfl rfl

/-! ## Loss of SPC's clock (R153, R164) -/

/-- Settles O46, lane by lane. -/
theorem inputClockIsLost : Obligations.InputClockIsLost := by
  intro s w hr hw hlost
  have due : s.clockLossDue = true := by simpa [State.clockLossDue, hr, hw, Config.clockLossTicks, sdiff] using hlost
  refine ⟨_, congrArg Host.Outcome.next (if_pos due), rfl, fun i hi => ?_, fun i hi => ?_⟩
  · refine (LaneMap.get_mapId _ _ _).trans ?_
    rw [Lane.clockLost, hi]
    rfl
  · have lost : (s.lanes.mapId fun _ l => l.clockLost).get i = { (s.lanes.get i).discardFilling with discPending := true } := by
      rw [LaneMap.get_mapId, Lane.clockLost, if_pos hi]
    have frame := discardFilling_frame (s.lanes.get i)
    rw [discardFilling_counters] at frame
    rw [frame] at lost
    exact ⟨congrArg Lane.filling lost, congrArg Lane.discPending lost, lost⟩

/-! ## The general lines (R180 to R183) -/

theorem active_iff (p : OutPortState) : p.active = true ↔ 0 < p.hang ∨ p.tailEnd ≠ none := by
  rw [OutPortState.active, Bool.or_eq_true, decide_eq_true_iff, Option.isSome_iff_ne_none]

/-- The level on a line is the one driven where the part drives it (R180, R183). -/
theorem lineLevel_of_driven {s : State} {i : LineId} {b : Bool} (h : s.driven (s.lines.get i) = some b) : s.lineLevel i = b := by
  rw [State.lineLevel, h, Option.getD_some]

theorem readFunction_of_code {f : LineFunction} {function cue : Byte} (hf : f.code = function)
    (hc : ∀ c, f = .cue c ∨ f = .cueInverted c → cue.toNat = c.num) : readFunction function cue = some f := by
  subst hf
  cases f with
  | cue c => exact congrArg (Option.map LineFunction.cue) (readCue_of_num (hc c (.inl rfl)))
  | cueInverted c => exact congrArg (Option.map LineFunction.cueInverted) (readCue_of_num (hc c (.inr rfl)))
  | input => rfl
  | output => rfl
  | lock => rfl
  | activeA => rfl
  | activeB => rfl

/-- A line in an answer (R182, R183). -/
theorem lineFields_eq (s : State) (i : LineId) :
    s.lineFields i = [(s.lines.get i).function.code, BitVec.ofNat 8 (s.lines.get i).function.cueNum,
      if (s.lines.get i).stored then 1 else 0, if s.lineLevel i then 1 else 0] := rfl

/-- Settles O49: the level a line shows by its function, INPUT's as it comes. -/
theorem linesAreSetAndRead : Obligations.LinesAreSetAndRead := by
  intro tag s shows hs hshows
  have level : ∀ (u : State) (i : LineId), u.cues = s.cues → u.tracker = s.tracker → u.ports = s.ports →
      shows (u.lines.get i).function (u.lines.get i).stored (u.lineLevel i) := by
    intro u i hcues htracker hports
    rw [hshows]
    cases hf : (u.lines.get i).function with
    | input => trivial
    | output => exact lineLevel_of_driven (by rw [State.driven, hf])
    | cue c => exact lineLevel_of_driven (by rw [State.driven, hf, hcues])
    | cueInverted c => exact lineLevel_of_driven (by rw [State.driven, hf, hcues])
    | lock =>
      have shown : u.lineLevel i = (s.tracker.state == .locked || s.tracker.state == .ref) :=
        lineLevel_of_driven (by rw [State.driven, hf, htracker])
      simp [shown]
    | activeA =>
      have shown : u.lineLevel i = s.ports.spa.active := lineLevel_of_driven (by rw [State.driven, hf, hports])
      rw [shown]
      exact active_iff _
    | activeB =>
      have shown : u.lineLevel i = s.ports.spb.active := lineLevel_of_driven (by rw [State.driven, hf, hports])
      rw [shown]
      exact active_iff _
  refine ⟨fun r i f v hi hf hc hv => ?_, fun r hbad => ?_, s.lineLevel, fun i => level s i rfl rfl rfl, ?_⟩
  · have shown := level (s.setLine i { function := f, stored := v }) i rfl rfl rfl
    have owner : lineOwner r s = ((s.setLine i { function := f, stored := v }).sampled,
        [0x00, r.line, r.function, BitVec.ofNat 8 f.cueNum, r.level,
          if (s.setLine i { function := f, stored := v }).lineLevel i then 1 else 0]) := by
      rw [lineOwner, readLine_of_num hi, readFunction_of_code hf hc, hv, readBool_code]
      simp only [lineFields_eq, State.setLine_lines, LineMap.get_set_same, nat8, byte_of_lineNum hi, hf]
      rfl
    simp only [State.setLine_lines, LineMap.get_set_same] at shown
    exact ⟨_, shown, exec_served hs owner rfl rfl rfl⟩
  · have owner : lineOwner r s = (s, [0x12]) := by
      rw [lineOwner]
      rcases hbad with h | h | h | h
      · rw [(readLine_none _).mpr h]
        rfl
      · rw [(readFunction_none _ _).mpr (.inl h)]
        cases readLine r.line <;> rfl
      · rw [(readFunction_none _ _).mpr (.inr h)]
        cases readLine r.line <;> rfl
      · rw [(readBool_none _).mpr h]
        cases readLine r.line <;> cases readFunction r.function r.cue <;> rfl
    exact exec_served hs owner rfl rfl rfl
  · exact exec_served (i := .gread tag) (owner := linesOwner) hs rfl rfl rfl rfl

end Sys2Proof.Machine

/-! Requests over the link: decoding what was encoded (R200), field by field. -/

namespace Sys2Proof.Machine

/-! ## The last field of a payload -/

theorem get8_last (v : Byte) : get8 (put8 v) = (v, []) := rfl

theorem get16_last (v : BitVec 16) : get16 (put16 v) = (v, []) := by
  rw [← List.append_nil (put16 v)]
  exact get16_put16 v []

theorem get48_last (v : BitVec 48) : get48 (put48 v) = (v, []) := by
  rw [← List.append_nil (put48 v)]
  exact get48_put48 v []

theorem get72_last (v : BitVec 72) : get72 (put72 v) = (v, []) := by
  rw [← List.append_nil (put72 v)]
  exact get72_put72 v []

/-! ## The fields of each request -/

theorem TsetReq.decode_encode (r : TsetReq) : TsetReq.decode r.encode = r := by
  simp only [TsetReq.decode, TsetReq.encode, List.append_assoc, get8_put8, get32_put32, get48_last]

theorem TroleReq.decode_encode (r : TroleReq) : TroleReq.decode r.encode = r := by
  simp only [TroleReq.decode, TroleReq.encode, get8_put8, get8_last]

theorem TsyncReq.decode_encode (r : TsyncReq) : TsyncReq.decode r.encode = r := by
  simp only [TsyncReq.decode, TsyncReq.encode, List.append_assoc, get8_put8, get48_last]

theorem TstrobeReq.decode_encode (r : TstrobeReq) : TstrobeReq.decode r.encode = r := by
  simp only [TstrobeReq.decode, TstrobeReq.encode, List.append_assoc, get8_put8, get16_put16, get16_last]

theorem LcfgReq.decode_encode (r : LcfgReq) : LcfgReq.decode r.encode = r := by
  simp only [LcfgReq.decode, LcfgReq.encode, List.append_assoc, get8_put8, get16_put16, get32_put32, get16_last]

theorem LbindReq.decode_encode (r : LbindReq) : LbindReq.decode r.encode = r := by
  simp only [LbindReq.decode, LbindReq.encode, List.append_assoc, get8_put8, get16_put16, get48_last]

theorem LframeReq.decode_encode (r : LframeReq) : LframeReq.decode r.encode = r := by
  simp only [LframeReq.decode, LframeReq.encode, List.append_assoc, get8_put8, get16_put16, get48_put48]

theorem LhaltReq.decode_encode (r : LhaltReq) : LhaltReq.decode r.encode = r := by
  simp only [LhaltReq.decode, LhaltReq.encode, get8_put8, get8_last]

theorem MgainReq.decode_encode (r : MgainReq) : MgainReq.decode r.encode = r := by
  simp only [MgainReq.decode, MgainReq.encode, List.append_assoc, get8_put8, get16_put16, get8_last]

theorem MduckReq.decode_encode (r : MduckReq) : MduckReq.decode r.encode = r := by
  simp only [MduckReq.decode, MduckReq.encode, List.append_assoc, get8_put8, get16_put16, get8_last]

theorem PcfgReq.decode_encode (r : PcfgReq) : PcfgReq.decode r.encode = r := by
  simp only [PcfgReq.decode, PcfgReq.encode, List.append_assoc, get8_put8, get16_put16, get8_last]

theorem CsetReq.decode_encode (r : CsetReq) : CsetReq.decode r.encode = r := by
  simp only [CsetReq.decode, CsetReq.encode, List.append_assoc, get8_put8, get16_put16, get48_put48, get8_last]

theorem CrunReq.decode_encode (r : CrunReq) : CrunReq.decode r.encode = r := by
  simp only [CrunReq.decode, CrunReq.encode, get8_put8, get8_last]

theorem GsetReq.decode_encode (r : GsetReq) : GsetReq.decode r.encode = r := by
  simp only [GsetReq.decode, GsetReq.encode, List.append_assoc, get8_put8, get8_last]

/-! ## Whole requests -/

/-- A framed request whose payload decodes to it comes back whole (R190, R200). -/
theorem decodeRequest_of_framed {i : Instr} {ty : ReqType} {tag : Byte} {p : List Byte} (hf : Laws.Framing.Statement i)
    (hw : i.wf = true) (hi : i.request? = some (ty, tag, p)) (hd : decodePayload ty tag p = i) :
    decodeRequest (encodeRequest i) = i := by
  rw [decodeRequest, hf ty tag p hi hw]
  exact hd

/-- Settles O55: each request by its framing and the decoding of its fields. -/
theorem requestRoundTrip : Obligations.RequestRoundTrip := by
  intro i hi hw
  cases i with
  | tnow tag => exact decodeRequest_of_framed (Laws.Framing.tnow tag) hw rfl rfl
  | tinj tag => exact decodeRequest_of_framed (Laws.Framing.tinj tag) hw rfl rfl
  | gread tag => exact decodeRequest_of_framed (Laws.Framing.gread tag) hw rfl rfl
  | eread tag => exact decodeRequest_of_framed (Laws.Framing.eread tag) hw rfl rfl
  | xreset tag => exact decodeRequest_of_framed (Laws.Framing.xreset tag) hw rfl rfl
  | xident tag => exact decodeRequest_of_framed (Laws.Framing.xident tag) hw rfl rfl
  | tcaps tag n => exact decodeRequest_of_framed (Laws.Framing.tcaps tag n) hw rfl rfl
  | lgo tag n => exact decodeRequest_of_framed (Laws.Framing.lgo tag n) hw rfl rfl
  | lstat tag n => exact decodeRequest_of_framed (Laws.Framing.lstat tag n) hw rfl rfl
  | lfetch tag n => exact decodeRequest_of_framed (Laws.Framing.lfetch tag n) hw rfl rfl
  | eclear tag w =>
    exact decodeRequest_of_framed (Laws.Framing.eclear tag w) hw rfl (congrArg (fun x : FlagWord × List Byte => Instr.eclear tag x.1) (get72_last w))
  | emask tag w =>
    exact decodeRequest_of_framed (Laws.Framing.emask tag w) hw rfl (congrArg (fun x : FlagWord × List Byte => Instr.emask tag x.1) (get72_last w))
  | tset tag r =>
    exact decodeRequest_of_framed (Laws.Framing.tset tag r) hw rfl (congrArg (Instr.tset tag) (TsetReq.decode_encode r))
  | trole tag r =>
    exact decodeRequest_of_framed (Laws.Framing.trole tag r) hw rfl (congrArg (Instr.trole tag) (TroleReq.decode_encode r))
  | tsync tag r =>
    exact decodeRequest_of_framed (Laws.Framing.tsync tag r) hw rfl (congrArg (Instr.tsync tag) (TsyncReq.decode_encode r))
  | tstrobe tag r =>
    exact decodeRequest_of_framed (Laws.Framing.tstrobe tag r) hw rfl (congrArg (Instr.tstrobe tag) (TstrobeReq.decode_encode r))
  | lcfg tag r =>
    exact decodeRequest_of_framed (Laws.Framing.lcfg tag r) hw rfl (congrArg (Instr.lcfg tag) (LcfgReq.decode_encode r))
  | lbind tag r =>
    exact decodeRequest_of_framed (Laws.Framing.lbind tag r) hw rfl (congrArg (Instr.lbind tag) (LbindReq.decode_encode r))
  | lframe tag r =>
    exact decodeRequest_of_framed (Laws.Framing.lframe tag r) hw rfl (congrArg (Instr.lframe tag) (LframeReq.decode_encode r))
  | lhalt tag r =>
    exact decodeRequest_of_framed (Laws.Framing.lhalt tag r) hw rfl (congrArg (Instr.lhalt tag) (LhaltReq.decode_encode r))
  | mgain tag r =>
    exact decodeRequest_of_framed (Laws.Framing.mgain tag r) hw rfl (congrArg (Instr.mgain tag) (MgainReq.decode_encode r))
  | mduck tag r =>
    exact decodeRequest_of_framed (Laws.Framing.mduck tag r) hw rfl (congrArg (Instr.mduck tag) (MduckReq.decode_encode r))
  | pcfg tag r =>
    exact decodeRequest_of_framed (Laws.Framing.pcfg tag r) hw rfl (congrArg (Instr.pcfg tag) (PcfgReq.decode_encode r))
  | cset tag r =>
    exact decodeRequest_of_framed (Laws.Framing.cset tag r) hw rfl (congrArg (Instr.cset tag) (CsetReq.decode_encode r))
  | crun tag r =>
    exact decodeRequest_of_framed (Laws.Framing.crun tag r) hw rfl (congrArg (Instr.crun tag) (CrunReq.decode_encode r))
  | gset tag r =>
    exact decodeRequest_of_framed (Laws.Framing.gset tag r) hw rfl (congrArg (Instr.gset tag) (GsetReq.decode_encode r))
  | _ => exact absurd rfl hi

end Sys2Proof.Machine

/-! The link's transactions (R185 to R188), its framing (R190, R191), and the requests to the event flags (R194 to R196). -/

namespace Sys2Proof.Machine

/-! ## The status byte and ATTN (R185, R192) -/

/-- The status byte of every length that the queues reach (R184, R185). -/
theorem statusByte_value : ∀ (attn : Bool) (waiting : Fin 3) (queued : Fin 9),
    (((if attn then 0x80 else 0 : Nat) : Byte) ||| (BitVec.ofNat 8 (2 - waiting.val) <<< 4) ||| BitVec.ofNat 8 (min queued.val 15)).toNat =
      (if attn then 128 else 0) + 16 * (2 - waiting.val) + queued.val := by
  decide

/-- Every flag of the part. -/
def allFlags : List Flag :=
  ([.locked, .unlock, .hold, .free, .step, .epoch, .capLost, .boot] : List TrackerFlag).map .tracker
    ++ (LaneId.list.map fun i =>
        ([.start, .starved, .drained, .low, .high, .slip, .tag, .held] : List LaneFlag).map (.lane i)).flatten
    ++ ([.clipA, .clipB, .inClk] : List PortFlag).map .port
    ++ (CueId.list.map fun c => [.cue (.fired c), .cue (.fail c)]).flatten

/-- Every position that holds a flag is some flag's place (R193). -/
theorem exists_flag_place {n : Nat} (h : flagPositions.getLsbD n = true) : ∃ f : Flag, f.place = n := by
  have covered : ∀ k : Fin 72, flagPositions.getLsbD k.val = true → allFlags.any (fun f => f.place == k.val) = true := by decide
  have small : n < 72 := BitVec.lt_of_getLsbD h
  obtain ⟨f, -, hf⟩ := List.any_eq_true.mp (covered ⟨n, small⟩ h)
  exact ⟨f, beq_iff_eq.mp hf⟩

theorem getLsbD_zero {w : Nat} (n : Nat) : (0 : BitVec w).getLsbD n = false := BitVec.getLsbD_zero

/-- A word is not 0 exactly when a bit of it is set. -/
theorem bitVec_ne_zero_iff {w : Nat} (v : BitVec w) : v ≠ 0 ↔ ∃ n, v.getLsbD n = true := by
  constructor
  · intro h
    by_contra hn
    refine h (BitVec.eq_of_getLsbD_eq fun i _ => ?_)
    rw [getLsbD_zero]
    exact Bool.eq_false_iff.mpr fun k => hn ⟨i, k⟩
  · rintro ⟨n, hn⟩ rfl
    rw [getLsbD_zero] at hn
    cases hn

/-- ATTN: an answer is queued, or a flag is set whose enable is on (R192). -/
theorem attn_iff {s : State} (hflag : s.FlagLaw) :
    s.attn = true ↔ s.link.outbound ≠ [] ∨ ∃ f : Flag, s.flag f = true ∧ s.flagEnabled f = true := by
  have word : (s.flagWord &&& s.link.enables != 0) = true ↔ ∃ f : Flag, s.flag f = true ∧ s.flagEnabled f = true := by
    rw [bne_iff_ne, bitVec_ne_zero_iff]
    constructor
    · rintro ⟨n, hn⟩
      rw [BitVec.getLsbD_and, Bool.and_eq_true] at hn
      obtain ⟨f, rfl⟩ : ∃ f : Flag, f.place = n := by
        refine exists_flag_place (Bool.not_eq_false _ ▸ fun hno => ?_)
        have outside : (s.link.enables &&& ~~~ flagPositions).getLsbD n = true := by
          rw [BitVec.getLsbD_and, BitVec.getLsbD_not, hno, hn.2, decide_eq_true (BitVec.lt_of_getLsbD hn.2)]
          rfl
        rw [hflag.2, getLsbD_zero] at outside
        cases outside
      exact ⟨f, hn⟩
    · rintro ⟨f, hf⟩
      exact ⟨f.place, by rw [BitVec.getLsbD_and, Bool.and_eq_true]; exact hf⟩
  rw [State.attn, Bool.or_eq_true, word]
  cases s.link.outbound <;> simp

/-! ## Transactions (R185 to R188) -/

theorem answer_bytes (a : Answer) : a.bytes = a.type :: a.tag :: (put16 (BitVec.ofNat 16 a.payload.length) ++ a.payload) := rfl

theorem misoByte_zero {s : State} {t : Transaction} (h : s.link.transaction = some t) : s.misoByte 0 = t.status := by
  simp only [State.misoByte, h]

theorem misoByte_succ {s : State} {t : Transaction} (h : s.link.transaction = some t) (n : Nat) :
    s.misoByte (n + 1) = (t.head.map fun a => a.bytes.getD n 0).getD 0 := by
  simp only [State.misoByte, h]
  cases t.head <;> rfl

/-- Settles O50: the fixed parts by their definitions, MISO by the head answer. -/
theorem chipSelectFallFixesTheTransaction : Obligations.ChipSelectFallFixesTheTransaction := by
  intro s hr ht hlink hflag
  obtain ⟨hin, hout, -⟩ := hlink
  refine ⟨s.openTransaction, ?_, attn_iff hflag, rfl, ?_, ?_, ?_, fun during hd => ⟨?_, fun n => ?_⟩⟩
  · have value := statusByte_value s.attn ⟨s.link.inbound.length, by omega⟩ ⟨s.link.outbound.length, by omega⟩
    rw [State.openTransaction, State.statusByte]
    exact value
  · rw [State.openTransaction, decide_eq_true_iff, State.freeSlots, Config.inboundSlots]
    omega
  · simp only [State.openTransaction]
    cases s.link.outbound <;> simp
  · refine congrArg Host.Outcome.next ?_
    rw [hr, ht]
    rfl
  · exact misoByte_zero hd
  · rw [misoByte_succ hd]
    simp only [State.openTransaction]
    cases s.link.outbound <;> rfl

/-- Settles O51: the head answer, then the request. -/
theorem chipSelectRiseJudgesTheTransaction : Obligations.ChipSelectRiseJudgesTheTransaction := by
  intro mosi crossed t s ht hlen
  refine congrArg Host.Outcome.next ?_
  have head : (t.headLive && t.clockedOut crossed) = true ↔
      t.headLive = true ∧ ∃ a, t.head = some a ∧ 5 + a.payload.length ≤ crossed := by
    rw [Bool.and_eq_true, Transaction.clockedOut]
    cases t.head with
    | none => simp
    | some a =>
      have bytes : a.bytes.length = 4 + a.payload.length := by
        simp [answer_bytes]
        omega
      simp [bytes, ← Nat.add_assoc]
  have takes : (crossed != 0 && !isPoll mosi && !t.full) = true ↔ (∃ b, mosi.head? = some b ∧ b ≠ 0) ∧ t.full = false := by
    cases mosi with
    | nil => simp [isPoll]
    | cons b rest =>
      have some : crossed ≠ 0 := by
        simp only [List.length_cons] at hlen
        omega
      simp [isPoll, some]
  simp only [ht, head, takes]
  rfl

/-! ## Framing (R190, R191) -/

theorem canServe_ready {s : State} (hs : s.Ready) : s.canServe = true := (canServe_iff s).mpr ⟨hs.2.1, hs.2.2⟩

/-- A framing refusal on a ready part (R190). -/
theorem exec_framingRefusal {s : State} {raw : RawRequest} {a : Answer} (hs : s.Ready) (h : framingAnswer raw = some a) :
    exec (.framingRefusal raw) s = .next (s.postAnswer a) := by
  refine congrArg Host.Outcome.next ?_
  rw [h]
  simp only [hs.1, canServe_ready hs, if_true]

/-- The answer type of a type byte (R191). -/
theorem answerTypeOf_known (k : ReqType) : answerTypeOf k.code = k.code + 0x80 := by
  rw [answerTypeOf, ReqType.ofCode_code]

theorem ofCode_unknown {ty : Byte} (h : ∀ k : ReqType, k.code ≠ ty) : ReqType.ofCode ty = none := by
  cases hk : ReqType.ofCode ty with
  | none => rfl
  | some k => exact absurd (ReqType.code_ofCode ty k hk) (h k)

theorem framingAnswer_badLength {raw : RawRequest} {a tag : Byte} (h : frameCheck raw = .badLength a tag) :
    framingAnswer raw = some { type := a, tag := tag, payload := [0x10] } := by
  rw [framingAnswer, h]
  rfl

theorem answerTypeOf_cases (ty : Byte) :
    (∃ k : ReqType, k.code = ty ∧ answerTypeOf ty = ty + 0x80) ∨ ((∀ k : ReqType, k.code ≠ ty) ∧ answerTypeOf ty = 0x80) := by
  by_cases h : ∃ k : ReqType, k.code = ty
  · obtain ⟨k, rfl⟩ := h
    exact .inl ⟨k, rfl, answerTypeOf_known k⟩
  · have unknown : ∀ k : ReqType, k.code ≠ ty := fun k hk => h ⟨k, hk⟩
    refine .inr ⟨unknown, ?_⟩
    rw [answerTypeOf, ofCode_unknown unknown]

/-- A payload of the length its header names, and no more than the largest, passes the length check (R190). -/
theorem header_whole {n len : Nat} (h : n = len) (hmax : len ≤ 6400) : ¬ (false = true ∨ 6400 < n ∨ n ≠ len) := by
  rintro (k | k | k)
  · cases k
  · omega
  · exact k h

/-- Settles O52, by the framing checks in their order. -/
theorem framingIsRefused : Obligations.FramingIsRefused := by
  intro s hs
  refine ⟨fun ty tag hi lo p => ⟨fun hbad => ?_, fun hlen hmax hty => ?_, fun hlen hmax k n hk hfixed hne => ?_⟩, fun raw hraw => ?_⟩
  · have check := frameCheck_header ty tag hi lo p false
    rw [if_pos (by omega)] at check
    exact ⟨_, answerTypeOf_cases ty, exec_framingRefusal hs (framingAnswer_badLength check)⟩
  · have check := frameCheck_header ty tag hi lo p false
    rw [if_neg (header_whole hlen hmax), ofCode_unknown hty] at check
    refine exec_framingRefusal hs ?_
    rw [framingAnswer, check]
    rfl
  · subst hk
    have check := frameCheck_header k.code tag hi lo p false
    rw [if_neg (header_whole hlen hmax), ReqType.ofCode_code] at check
    simp only [hfixed, if_neg hne, answerTypeOf_known] at check
    exact exec_framingRefusal hs (framingAnswer_badLength check)
  · refine ⟨_, _, ?_, rfl, exec_framingRefusal hs (framingAnswer_badLength (frameCheck_noHeader raw hraw))⟩
    cases raw.bytes with
    | nil => exact .inr ⟨fun k => by cases k <;> decide, rfl⟩
    | cons b rest =>
      refine (answerTypeOf_cases b).imp (fun ⟨k, hk, ha⟩ => ⟨k, congrArg some hk.symm, ?_⟩) fun ⟨hk, ha⟩ => ⟨fun k => (hk k).symm, ha⟩
      rw [hk]
      exact ha

/-! ## The event flags (R194 to R196) -/

/-- A bit of a byte of the flag layout. -/
theorem flagByte_bit (w : FlagWord) {n b : Nat} (hb : b < 8) : (flagByte w n).getLsbD b = w.getLsbD (8 * (8 - n) + b) := by
  rw [flagByte, BitVec.getLsbD_extractLsb', decide_eq_true hb, Bool.true_and]

theorem clear_bit (byte mask : Byte) {b : Nat} (hb : b < 8) : (byte &&& ~~~ mask).getLsbD b = (byte.getLsbD b && !mask.getLsbD b) := by
  rw [BitVec.getLsbD_and, BitVec.getLsbD_not, decide_eq_true hb, Bool.true_and]

theorem TrackerFlag.bit_lt (f : TrackerFlag) : f.bit < 8 := by cases f <;> decide

theorem LaneFlag.bit_lt (f : LaneFlag) : f.bit < 8 := by cases f <;> decide

theorem PortFlag.bit_lt (f : PortFlag) : f.bit < 8 := by cases f <;> decide

theorem CueFlag.bit_lt (f : CueFlag) : f.bit < 8 := by
  cases f with
  | fired c => exact Nat.lt_succ_of_le (Nat.sub_le 7 c.num)
  | fail c => exact Nat.lt_of_le_of_lt (Nat.sub_le 3 c.num) (by decide)

/-- ECLEAR clears the flags its mask names and no other (R195). -/
theorem clearFlags_flag (s : State) (mask : FlagWord) (f : Flag) :
    (s.clearFlags mask).flag f = (s.flag f && !mask.getLsbD f.place) := by
  cases f with
  | tracker f => rw [flag_tracker, flag_tracker, State.clearFlags, clear_bit _ _ f.bit_lt, flagByte_bit _ f.bit_lt]; rfl
  | lane i f =>
    rw [flag_lane, flag_lane, State.clearFlags, LaneMap.get_mapId, clear_bit _ _ f.bit_lt, flagByte_bit _ f.bit_lt]
    cases i <;> rfl
  | port f => rw [flag_port, flag_port, State.clearFlags, clear_bit _ _ f.bit_lt, flagByte_bit _ f.bit_lt]; rfl
  | cue f =>
    rw [flag_cue, flag_cue, State.clearFlags, clear_bit _ _ f.bit_lt, flagByte_bit _ f.bit_lt, Nat.sub_self, Nat.mul_zero, Nat.zero_add]
    rfl

/-- The port group's byte within the flag word (R194). -/
theorem flagWord_port {s : State} {n : Nat} (hlow : 8 ≤ n) (hhigh : n < 16) :
    s.flagWord.getLsbD n = s.link.portFlags.getLsbD (n - 8) := by
  rw [flagWord_bit, if_pos (by omega), if_pos (by omega), if_pos (by omega), if_pos (by omega), if_pos (by omega), if_pos (by omega),
    if_pos hhigh, if_neg (by omega)]

/-- No flag stands at a position that holds none (R195). -/
theorem flagWord_positions {s : State} (h : s.FlagLaw) : s.flagWord &&& ~~~ flagPositions = 0 := by
  have unused : ∀ n : Fin 72, (~~~ flagPositions).getLsbD n.val = true → 8 ≤ n.val ∧ n.val < 16 ∧ (0x1F : Byte).getLsbD (n.val - 8) = true := by
    decide
  by_contra hne
  obtain ⟨n, hn⟩ := (bitVec_ne_zero_iff _).mp hne
  rw [BitVec.getLsbD_and, Bool.and_eq_true] at hn
  obtain ⟨hlow, hhigh, hmask⟩ := unused ⟨n, BitVec.lt_of_getLsbD hn.1⟩ hn.2
  have port := hn.1
  rw [flagWord_port hlow hhigh] at port
  have kept : (s.link.portFlags &&& 0x1F).getLsbD (n - 8) = true := by rw [BitVec.getLsbD_and, port, hmask]; rfl
  rw [h.1, getLsbD_zero] at kept
  cases kept

theorem namesNoFlag_false {w : FlagWord} (h : w &&& ~~~ flagPositions = 0) : namesNoFlag w = false := by
  rw [namesNoFlag, h]
  rfl

theorem namesNoFlag_true {w : FlagWord} (h : w &&& ~~~ flagPositions ≠ 0) : namesNoFlag w = true := bne_iff_ne.mpr h

/-- Settles O53: the flags read by their places, the masks by the positions they name. -/
theorem ereadEclearAndEmask : Obligations.EreadEclearAndEmask := by
  refine ⟨fun tag s hs => ⟨s.flagWord, fun _ => rfl, flagWord_positions, ?_⟩, fun tag w s hs => ⟨fun hw => ?_, fun hw => ?_, fun hw => ?_⟩⟩
  · have tags : s.lanes.toList.map (fun l => optField 1 put8 l.lastTag) =
        LaneId.list.map (fun i => optField 1 put8 (s.lanes.get i).lastTag) := rfl
    refine (exec_served (owner := fun s => (s, accept (eventFields s))) hs rfl rfl rfl rfl).trans ?_
    rw [eventFields, tags]
    refine congrArg (fun tags : List (List Byte) => Host.Outcome.next (s.postAnswer
      { type := 0xC0, tag := tag, payload := 0x00 :: (put72 s.flagWord ++ put72 s.link.enables ++ tags.flatten) }))
      (List.map_congr_left fun i _ => ?_)
    cases (s.lanes.get i).lastTag <;> rfl
  · have owner : clearOwner w s = (s.clearFlags w, 0x00 :: put72 (s.clearFlags w).flagWord) := by
      rw [clearOwner, namesNoFlag_false hw]
      rfl
    refine ⟨_, exec_served hs owner rfl rfl rfl, fun f => clearFlags_flag s w f, fun i => ?_, rfl⟩
    simp [State.postAnswer, State.clearFlags]
  · have owner : maskOwner w s = ({ s with link := { s.link with enables := w } }, 0x00 :: (put72 w ++ put72 s.flagWord)) := by
      rw [maskOwner, namesNoFlag_false hw]
      rfl
    exact exec_served hs owner rfl rfl rfl
  · have clear : clearOwner w s = (s, [0x12]) := by
      rw [clearOwner, namesNoFlag_true hw]
      rfl
    have mask : maskOwner w s = (s, [0x12]) := by
      rw [maskOwner, namesNoFlag_true hw]
      rfl
    exact ⟨exec_served hs clear rfl rfl rfl, exec_served hs mask rfl rfl rfl⟩

end Sys2Proof.Machine

/-! CSET and CRUN: reading the codes, the cue's record, and the choices (R176, R178). -/

namespace Sys2Proof.Machine

/-! ## The record (R176) -/

/-- A cue's record, the fields that its cases decide given apart (R176; log 16). -/
theorem cueFields_eq {c : CueId} {q : Cue} {gate : Byte} {action last due : List Byte} (hgate : gateCode q.gate = [gate])
    (haction : q.action.code :: q.action.fields = action)
    (hlast : optField 6 (fun k : BlockIndex => nat48 k.toNat) q.lastExpiry = last)
    (hdue : optField 6 (fun k : BlockIndex => nat48 k.toNat) q.reportDue = due) :
    q.fields c =
      [BitVec.ofNat 8 c.num, q.mode.code] ++ put48 q.target ++ put48 (BitVec.ofNat 48 q.interval) ++ put16 (BitVec.ofNat 16 q.reload)
        ++ [gate] ++ action
        ++ [q.report.code, q.line.code, q.state.code] ++ put16 (BitVec.ofNat 16 q.count) ++ [if q.level then 1 else 0]
        ++ put16 (BitVec.ofNat 16 q.expiries) ++ put16 (BitVec.ofNat 16 q.skipped) ++ last ++ [q.outcome.code] ++ due := by
  subst haction hlast hdue
  simp [Cue.fields, hgate, nat8, nat16, nat48, put8, bool8]

/-! ## CSET's codes (R176, R200) -/

/-- A cue with a carried configuration (R176). -/
def Cue.withConfig (q : Cue) (r : CsetReq) (mode : CueMode) (gate : Option LaneId) (action : CueAction) (report : ReportMode)
    (line : LineMode) : Cue :=
  { q with
    mode := mode, target := r.target, interval := cueInterval r, reload := r.reload.toNat, gate := gate, action := action,
    report := report, line := line }

theorem readGate_of_code {b : Byte} {gate : Option LaneId}
    (h : (b = 0xFF ∧ gate = none) ∨ ∃ i : LaneId, b.toNat = i.num ∧ gate = some i) : readGate b = some gate := by
  rcases h with ⟨rfl, rfl⟩ | ⟨i, hi, rfl⟩
  · rfl
  · have notNone : b ≠ 0xFF := by
      rintro rfl
      cases i <;> exact absurd hi (by decide)
    rw [readGate, if_neg notNone, readLane_of_num hi]
    rfl

theorem readCueAction_of_codes {r : CsetReq} {flush : Bool} {action : CueAction} (hf : r.flush = (if flush then 1 else 0))
    (hp : r.port.toNat ≤ 2)
    (ha : (r.action = 0 ∧ action = .none) ∨
      (∃ i : LaneId, r.lane.toNat = i.num ∧
        ((r.action = 1 ∧ action = .go i) ∨ (r.action = 2 ∧ action = .halt i flush) ∨
          ∃ p, r.action = 3 ∧ outPortCode p = r.port ∧ action = .gain i p r.gain.toNat r.ramp.toNat))) :
    readCueAction r = some action := by
  rw [readCueAction, hf, readBool_code]
  simp only [if_neg (Nat.not_lt.mpr hp)]
  rcases ha with ⟨h, rfl⟩ | ⟨i, hi, ⟨h, rfl⟩ | ⟨h, rfl⟩ | ⟨p, h, hport, rfl⟩⟩
  · simp only [h]
    rfl
  · simp only [h, readLane_of_num hi]
    rfl
  · simp only [h, readLane_of_num hi]
    rfl
  · simp only [h, readLane_of_num hi, ← hport, readOutPort_code]
    rfl

/-- The codes of an action that cannot be read (R176, R200; log 16). -/
theorem readCueAction_none {r : CsetReq} (h : 1 < r.flush.toNat ∨ 2 < r.port.toNat ∨ 3 < r.action.toNat ∨
    (r.action ≠ 0 ∧ 5 < r.lane.toNat) ∨ (r.action = 3 ∧ 1 < r.port.toNat)) : readCueAction r = none := by
  rw [readCueAction]
  cases hflush : readBool r.flush with
  | none => rfl
  | some flush =>
    have known : ¬ 1 < r.flush.toNat := fun k => by rw [(readBool_none _).mpr k] at hflush; cases hflush
    by_cases port : 2 < r.port.toNat
    · simp only [if_pos port]
    simp only [if_neg port]
    rcases (h.resolve_left known).resolve_left port with h | ⟨ha, hl⟩ | ⟨ha, hp⟩
    · split
      · omega
      · omega
      · omega
      · omega
      · rfl
    · simp only [(readLane_none _).mpr hl]
      split
      · rename_i zero
        exact absurd (BitVec.eq_of_toNat_eq zero) ha
      · rfl
      · rfl
      · rfl
      · rfl
    · simp only [ha, (readOutPort_none _).mpr hp]
      cases readLane r.lane <;> rfl

theorem configured_of_codes {r : CsetReq} {mode : CueMode} {gate : Option LaneId} {action : CueAction} {report : ReportMode}
    {line : LineMode} (hm : mode.code = r.mode) (hg : readGate r.gate = some gate) (ha : readCueAction r = some action)
    (hr : report.code = r.report) (hl : line.code = r.line) (q : Cue) :
    q.configured r = some (q.withConfig r mode gate action report line) := by
  rw [Cue.configured, ← hm, hg, ha, ← hr, ← hl, readCueMode_code, readReport_code, readLineMode_code]
  rfl

theorem configured_none {r : CsetReq} (h : 2 < r.mode.toNat ∨ (5 < r.gate.toNat ∧ r.gate ≠ 0xFF) ∨ readCueAction r = none ∨
    1 < r.report.toNat ∨ 1 < r.line.toNat) (q : Cue) : q.configured r = none := by
  rw [Cue.configured]
  rcases h with h | h | h | h | h
  · rw [(readCueMode_none _).mpr h]
  · rw [(readGate_none _).mpr h]
    cases readCueMode r.mode <;> rfl
  · rw [h]
    cases readCueMode r.mode <;> cases readGate r.gate <;> rfl
  · rw [(readReport_none _).mpr h]
    cases readCueMode r.mode <;> cases readGate r.gate <;> cases readCueAction r <;> rfl
  · rw [(readLineMode_none _).mpr h]
    cases readCueMode r.mode <;> cases readGate r.gate <;> cases readCueAction r <;> cases readReport r.report <;> rfl

/-! ## CSET (R176) -/

theorem cueSetOwner_refused {r : CsetReq} (h : 3 < r.cue.toNat ∨ ∀ q : Cue, q.configured r = none) (s : State) :
    cueSetOwner r s = (s, [0x12]) := by
  rw [cueSetOwner]
  rcases h with h | h
  · rw [(readCue_none _).mpr h]
    rfl
  · cases readCue r.cue with
    | none => rfl
    | some c => simp only [h]; rfl

theorem cueSetOwner_known {r : CsetReq} {c : CueId} {s : State} {q : Cue} (hc : r.cue.toNat = c.num)
    (hq : (s.cues.get c).configured r = some q) :
    cueSetOwner r s =
      if (s.cues.get c).state = .running ∧ q.mode ≠ (s.cues.get c).mode then (s, [0x13])
      else (s.setCue c q, (if cueInterval r = r.interval.toNat then 0x00 else 0x01) :: q.fields c) := by
  rw [cueSetOwner, readCue_of_num hc]
  simp only [hq, acceptOr_ne]
  rfl

/-! ## CRUN (R178) -/

theorem preset_eq (q : Cue) :
    q.preset = if q.mode = .blocks then { q with count := q.reload }
      else if q.state = .expired then { q with state := .stopped } else q := by
  cases h : q.mode <;> simp [Cue.preset, h]

theorem run_eq {q : Cue} (h : q.state ≠ .expired) : q.run = some { q with state := .running } := by
  cases hs : q.state with
  | stopped => rw [Cue.run, hs]
  | running =>
    simp only [Cue.run, hs]
    rw [← hs]
  | expired => exact absurd hs h

theorem cueRunOwner_known {r : CrunReq} {c : CueId} {s : State} (hc : r.cue.toNat = c.num) (hr : r.choices.toNat < 6) :
    cueRunOwner r s =
      match (s.cues.get c).choose (r.choices.getLsbD 0) (r.choices.getLsbD 1) (r.choices.getLsbD 2) with
      | none => (s, [0x13])
      | some q => (s.setCue c q, 0x00 :: q.fields c) := by
  have known : ∀ b : Byte, b.toNat < 6 → ((b &&& 0xF8) != 0 || (b.getLsbD 1 && b.getLsbD 2)) = false := by decide +kernel
  rw [cueRunOwner, readCue_of_num hc]
  simp only [known _ hr]
  rfl

theorem cueRunOwner_refused {r : CrunReq} (h : 3 < r.cue.toNat ∨ 6 ≤ r.choices.toNat) (s : State) :
    cueRunOwner r s = (s, [0x12]) := by
  have unknown : ∀ b : Byte, 6 ≤ b.toNat → ((b &&& 0xF8) != 0 || (b.getLsbD 1 && b.getLsbD 2)) = true := by decide +kernel
  rw [cueRunOwner]
  rcases h with h | h
  · rw [(readCue_none _).mpr h]
    rfl
  · cases readCue r.cue with
    | none => rfl
    | some c => simp only [unknown _ h]; rfl

/-- Settles O47: the codes, then CSET by its mode and CRUN by its choices. -/
theorem csetAndCrun : Obligations.CsetAndCrun := by
  intro record hrecord
  have fields : ∀ c q, Cue.fields c q = record c q := by
    intro c q
    rw [hrecord]
    refine cueFields_eq ?_ ?_ ?_ ?_
    · cases q.gate <;> rfl
    · cases q.action <;> rfl
    · cases q.lastExpiry <;> rfl
    · cases q.reportDue <;> rfl
  refine ⟨fun tag r s hs hbad => ?_, fun tag r s hs hbad => exec_served hs (cueRunOwner_refused hbad s) rfl rfl rfl,
    fun tag r c mode gate action report line flush s hs hc hm hg hf hp ha hr hl => ?_, fun tag r c s hs hc q hlt hq => ?_⟩
  · refine exec_served hs (cueSetOwner_refused ?_ s) rfl rfl rfl
    rcases hbad with h | h | h | h | h | h | h | h | h | h
    exacts [.inl h, .inr (configured_none (.inl h)), .inr (configured_none (.inr (.inl h))),
      .inr (configured_none (.inr (.inr (.inl (readCueAction_none (.inr (.inr (.inl h)))))))),
      .inr (configured_none (.inr (.inr (.inl (readCueAction_none (.inl h)))))),
      .inr (configured_none (.inr (.inr (.inl (readCueAction_none (.inr (.inl h))))))),
      .inr (configured_none (.inr (.inr (.inl (readCueAction_none (.inr (.inr (.inr (.inl h))))))))),
      .inr (configured_none (.inr (.inr (.inl (readCueAction_none (.inr (.inr (.inr (.inr h))))))))),
      .inr (configured_none (.inr (.inr (.inr (.inl h))))), .inr (configured_none (.inr (.inr (.inr (.inr h)))))]
  · have hq := configured_of_codes hm (readGate_of_code hg) (readCueAction_of_codes hf hp ha) hr hl (s.cues.get c)
    have owner := cueSetOwner_known hc hq
    refine ⟨fun hok => ⟨_, rfl, ?_⟩, fun hrun hmode => ?_⟩
    · rw [if_neg fun h => hok.elim (fun k => k h.1) fun k => h.2 k.symm, fields] at owner
      exact exec_served hs owner rfl rfl rfl
    · rw [if_pos ⟨hrun, fun k => hmode k.symm⟩] at owner
      exact exec_served hs owner rfl rfl rfl
  · have preset : q = if r.choices.getLsbD 0 then (s.cues.get c).preset else s.cues.get c := by
      rw [hq, preset_eq]
      cases r.choices.getLsbD 0 <;> rfl
    have owner := cueRunOwner_known (s := s) hc hlt
    simp only [Cue.choose, ← preset] at owner
    refine ⟨fun hlow => ?_, fun hstop => ?_, fun hrun hne => ?_, fun hrun he => ?_⟩
    · have bits : ∀ b : Byte, b.toNat < 2 → b.getLsbD 1 = false ∧ b.getLsbD 2 = false := by decide +kernel
      simp only [(bits _ hlow).1, (bits _ hlow).2, Bool.false_eq_true, if_false, fields] at owner
      exact exec_served hs owner rfl rfl rfl
    · have bit : r.choices.getLsbD 1 = true := by rcases hstop with h | h <;> rw [h] <;> decide
      simp only [bit, if_true, fields] at owner
      exact exec_served hs owner rfl rfl rfl
    · have bits : r.choices.getLsbD 1 = false ∧ r.choices.getLsbD 2 = true := by rcases hrun with h | h <;> rw [h] <;> decide
      simp only [bits.1, bits.2, Bool.false_eq_true, if_false, if_true, run_eq hne, fields] at owner
      exact exec_served hs owner rfl rfl rfl
    · have bits : r.choices.getLsbD 1 = false ∧ r.choices.getLsbD 2 = true := by rcases hrun with h | h <;> rw [h] <;> decide
      have refused : q.run = none := by rw [Cue.run, he]
      simp only [bits.1, bits.2, Bool.false_eq_true, if_false, if_true, refused] at owner
      exact exec_served hs owner rfl rfl rfl

end Sys2Proof.Machine

/-! A lane's block: 64 positions, and with a store of 24-bit samples every value of it a 24-bit sample (R84, R121, R123, R124); the
cursor's fraction on the way (R82, R122). -/

namespace Sys2Proof.Machine

/-! ## The samples (R121, R123, R124) -/

/-- A whole block of 24-bit samples (R84). -/
def Block.Whole (b : Block) : Prop := b.length = 64 ∧ ∀ v ∈ b, IsSample v.1 ∧ IsSample v.2

theorem isSample_zero : IsSample 0 := ⟨by decide, by decide⟩

theorem silence_whole : Block.Whole silence :=
  ⟨rfl, fun v hv => by rw [List.eq_of_mem_replicate hv]; exact ⟨isSample_zero, isSample_zero⟩⟩

/-- Every word of the store reads as a 24-bit sample, one that is not listed as 0 (R53). -/
theorem read_isSample {m : Memory} (h : m.InStore) (a : Nat) : IsSample (wordSample (m.read a)) := by
  induction m with
  | nil => exact isSample_zero
  | cons e rest ih =>
    obtain ⟨b, v⟩ := e
    obtain ⟨hhead, hrest⟩ := List.forall_mem_cons.mp h
    unfold Memory.read
    split
    · exact hhead.2
    · split
      · exact isSample_zero
      · exact ih hrest

/-- Interpolation stays between its ends (R121). -/
theorem interpolate_isSample {x0 x1 : Int} {frac : Nat} (h0 : IsSample x0) (h1 : IsSample x1) (hf : frac < 2 ^ 24) :
    IsSample (interpolate x0 x1 frac) := by
  obtain ⟨low0, high0⟩ := h0
  obtain ⟨low1, high1⟩ := h1
  obtain ⟨k, hk⟩ : ∃ k : Int, k = ((frac / 256 : Nat) : Int) := ⟨_, rfl⟩
  have hk0 : 0 ≤ k := by omega
  have hk1 : k ≤ 65535 := by omega
  rw [interpolate, ← hk, IsSample]
  have low : (-8388608 - x0) * 65536 ≤ (x1 - x0) * k := by nlinarith
  have high : (x1 - x0) * k < (8388607 - x0 + 1) * 65536 := by nlinarith
  have hlow := Int.le_ediv_of_mul_le (by decide) low
  have hhigh := Int.ediv_lt_of_lt_mul (by decide) high
  omega

/-- A fade within the block stays within the sample (R123, R124). -/
theorem fade_isSample {x : Int} (h : IsSample x) (k : BlockKind) {j : Nat} (hj : j < 64) : IsSample (fade k j x) := by
  obtain ⟨low, high⟩ := h
  have scaled : ∀ m : Int, 0 ≤ m → m ≤ 64 → IsSample (x * m / 64) := by
    intro m h0 h1
    have hlow := Int.le_ediv_of_mul_le (c := 64) (by decide) (show (-8388608) * 64 ≤ x * m by nlinarith)
    have hhigh := Int.ediv_lt_of_lt_mul (c := 64) (by decide) (show x * m < (8388607 + 1) * 64 by nlinarith)
    exact ⟨hlow, by omega⟩
  cases k with
  | trim => exact ⟨low, high⟩
  | start => exact scaled _ (by omega) (by omega)
  | slip => exact scaled _ (by omega) (by omega)
  | stop => exact scaled _ (by omega) (by omega)

theorem channelSample_isSample {store : Memory} (hs : store.InStore) (l : Lane) (f : FrameRecord) (rest : List FrameRecord)
    {c : Cursor} (hc : c.frac < 2 ^ 24) (step channel : Nat) : IsSample (channelSample store l f rest c step channel) := by
  have sample : ∀ g i, IsSample (frameSample store l.config g i channel) := fun g i => read_isSample hs _
  refine interpolate_isSample (sample f c.index) ?_ hc
  split
  · exact sample _ _
  · split
    · exact sample _ _
    · exact sample _ _

theorem positionSample_isSample {store : Memory} (hs : store.InStore) (l : Lane) (f : FrameRecord) (rest : List FrameRecord)
    {c : Cursor} (hc : c.frac < 2 ^ 24) (step : Nat) :
    IsSample (positionSample store l f rest c step).1 ∧ IsSample (positionSample store l f rest c step).2 := by
  have sample := channelSample_isSample hs l f rest hc step
  unfold positionSample
  dsimp only
  split
  · exact ⟨sample 0, sample 0⟩
  · exact ⟨sample 0, sample 1⟩

/-! ## The cursor's fraction (R82, R122) -/

/-- The cursor's fraction lies below one sample (R82). -/
def Lane.FracBounded (l : Lane) : Prop := ∀ c, l.cursor = some c → c.frac < 2 ^ 24

theorem Lane.FracBounded.of_none {l : Lane} (h : l.cursor = none) : l.FracBounded := fun c hc => by rw [h] at hc; cases hc

theorem Lane.FracBounded.of_some {l : Lane} {d : Cursor} (h : l.cursor = some d) (hd : d.frac < 2 ^ 24) : l.FracBounded :=
  fun c hc => by rw [h] at hc; exact Option.some.inj hc ▸ hd

theorem Lane.FracBounded.of_same {l m : Lane} (hl : l.FracBounded) (h : m.cursor = l.cursor) : m.FracBounded :=
  fun c hc => hl c (h ▸ hc)

/-- A release keeps the cursor or takes it away (R71). -/
theorem releaseWhere_frac {l : Lane} (hl : l.FracBounded) (p : FrameRecord → Bool) : (l.releaseWhere p).FracBounded := by
  intro c hc
  simp only [Lane.releaseWhere] at hc
  split at hc
  · cases hc
  · exact hl c hc

theorem releaseHead_frac {l : Lane} (hl : l.FracBounded) : l.releaseHead.FracBounded := by
  intro c hc
  unfold Lane.releaseHead at hc
  split at hc
  · exact hl c hc
  · dsimp only at hc
    split at hc
    · cases hc
    · exact hl c hc

theorem commit_frac {l : Lane} (hl : l.FracBounded) : l.commit.FracBounded := by
  unfold Lane.commit
  split
  · exact hl
  · exact releaseWhere_frac hl _

theorem beginEffects_frac {l : Lane} (hl : l.FracBounded) (f : FrameRecord) : (l.beginEffects f).FracBounded := by
  have tagged : ∀ o : Option Byte, (match o with
      | none => l
      | some t => { l.raise .tag with lastTag := some t }).FracBounded := by
    intro o
    cases o <;> exact hl
  unfold Lane.beginEffects
  dsimp only
  split
  · exact tagged _
  · split
    · exact commit_frac (tagged _)
    · exact tagged _

theorem enterHead_frac (l : Lane) {c : Cursor} (hc : c.frac < 2 ^ 24) : (l.enterHead c).FracBounded := by
  unfold Lane.enterHead
  split
  · exact .of_none rfl
  · dsimp only
    split
    · exact .of_some rfl hc
    · exact beginEffects_frac (.of_some rfl hc) _

theorem endStops_frac (k : BlockKind) (l : Lane) {m : Lane} (hm : m.cursor = none) : (l.endStops k m).FracBounded := by
  cases k
  · exact .of_none hm
  · exact .of_none hm
  · exact .of_none hm
  · exact .of_none rfl

/-- A frame end carries the fraction on (R99). -/
theorem frameEnd_frac (k : BlockKind) (fuel : Nat) {c : Cursor} {l : Lane} (hc : c.frac < 2 ^ 24) (hl : l.FracBounded) :
    (l.frameEnd k fuel c).FracBounded := by
  induction fuel generalizing c l with
  | zero => exact hl
  | succ n ih =>
    unfold Lane.frameEnd
    split
    · exact .of_none rfl
    · dsimp only
      split
      · exact endStops_frac k _ rfl
      · split
        · exact endStops_frac k _ rfl
        · split
          · exact endStops_frac k _ rfl
          · split
            · exact ih hc (enterHead_frac _ hc)
            · exact enterHead_frac _ hc

theorem advance_frac (k : BlockKind) (step : Nat) {l : Lane} (hl : l.FracBounded) (f : FrameRecord) (c : Cursor) :
    (l.advance k step f c).FracBounded := by
  have rest : (c.frac + step) % 2 ^ 24 < 2 ^ 24 := Nat.mod_lt _ (by decide)
  unfold Lane.advance
  dsimp only
  split
  · exact frameEnd_frac k _ rest hl
  · exact .of_some rfl rest

theorem dropLate_frac (c0 : Time) (n : Nat) {l : Lane} (hl : l.FracBounded) : (l.dropLate c0 n).FracBounded := by
  induction n generalizing l with
  | zero => exact hl
  | succ n ih =>
    unfold Lane.dropLate
    split
    · exact hl
    · split
      · exact hl
      · exact ih (releaseHead_frac hl : l.dropHead.FracBounded)

theorem cursorAt_frac (f : FrameRecord) (c0 : Time) : (cursorAt f c0).frac < 2 ^ 24 := by
  have h : (sdiff c0 f.time).toNat % 512 < 512 := Nat.mod_lt _ (by decide)
  simp only [cursorAt]
  omega

/-! ## Cue actions (R104) -/

theorem go_frac {l m : Lane} {now : Time} (hl : l.FracBounded) (h : l.go now = .ok m) : m.FracBounded := by
  unfold Lane.go at h
  split at h
  · cases h
  · split at h
    · split at h
      · cases h
        exact hl
      · cases h
    · split at h
      · split at h
        · cases h
        · cases h
          exact hl
      · cases h

theorem discardFilling_frac {l : Lane} (hl : l.FracBounded) : l.discardFilling.FracBounded :=
  hl.of_same (by rw [discardFilling_frame])

theorem halting_frac {l m : Lane} {flush : Bool} (hl : l.FracBounded) (h : l.halting flush = .ok m) : m.FracBounded := by
  unfold Lane.halting at h
  split at h
  · cases h
  · split at h
    · cases h
      unfold Lane.haltPlay
      split
      · split
        · exact releaseWhere_frac hl _
        · exact hl
      · split
        · exact hl
        · exact hl
    · cases h
      have stopped : (if l.state = .running then { l.discardFilling with state := .stopped, entryTime := none } else l).FracBounded := by
        split
        · exact discardFilling_frac hl
        · exact hl
      unfold Lane.haltCapture
      dsimp only
      split
      · exact releaseWhere_frac stopped _
      · exact stopped

theorem apply_frac (a : LaneAction) (now : Time) {l : Lane} (hl : l.FracBounded) : (a.apply now l).1.FracBounded := by
  unfold LaneAction.apply
  cases a.action with
  | go =>
    cases h : l.go now with
    | ok m => simpa only [h] using go_frac hl h
    | error code => simpa only [h] using hl
  | halt flush =>
    cases h : l.halting flush with
    | ok m => simpa only [h] using halting_frac hl h
    | error code => simpa only [h] using hl

theorem applyActions_frac (now : Time) (as : List LaneAction) {l : Lane} (hl : l.FracBounded) : (applyActions now as l).1.FracBounded := by
  induction as generalizing l with
  | nil => exact hl
  | cons a rest ih => exact ih (apply_frac a now hl)

/-! ## Whole blocks -/

/-- A run of positions (R121, R123, R124). -/
theorem produce_isSample {store : Memory} (hs : store.InStore) (k : BlockKind) (step n j : Nat) {l : Lane} (hl : l.FracBounded)
    (hj : j + n ≤ 64) : ∀ v ∈ (produce store k step n j l).2, IsSample v.1 ∧ IsSample v.2 := by
  induction n generalizing j l with
  | zero => simp [produce]
  | succ n ih =>
    unfold produce
    split
    · rename_i c f rest hc _
      obtain ⟨h1, h2⟩ := positionSample_isSample hs l f rest (hl c hc) step
      refine List.forall_mem_cons.mpr ⟨⟨fade_isSample h1 k (by omega), fade_isSample h2 k (by omega)⟩, ?_⟩
      exact ih (j + 1) (advance_frac k step hl f c) (by omega)
    · exact List.forall_mem_cons.mpr ⟨⟨isSample_zero, isSample_zero⟩, ih (j + 1) hl (by omega)⟩

theorem produceBlock_whole {store : Memory} (hs : store.InStore) (k : BlockKind) (step : Nat) {l : Lane} (hl : l.FracBounded) :
    (l.produceBlock store k step).2.Whole :=
  ⟨produce_length .., produce_isSample hs k step 64 0 (l := { l with lastStep := some step }) hl (by decide)⟩

theorem startBlock_length (env : BoundaryEnv) (l : Lane) {j0 : Nat} (hj : j0 ≤ 63) : (l.startBlock env j0).2.length = 64 := by
  simp only [Lane.startBlock, List.length_append, List.length_replicate, produce_length, Config.blockSamples]
  omega

theorem startBlock_whole {env : BoundaryEnv} (hs : env.store.InStore) {l : Lane} (hl : l.FracBounded) {j0 : Nat} (hj : j0 ≤ 63) :
    (l.startBlock env j0).2.Whole := by
  refine ⟨startBlock_length env l hj, fun v hv => ?_⟩
  rcases List.mem_append.mp hv with h | h
  · rw [List.eq_of_mem_replicate h]
    exact ⟨isSample_zero, isSample_zero⟩
  · refine produce_isSample hs .start _ _ j0 (Lane.FracBounded.of_same hl ?_) (by simp only [Config.blockSamples]; omega) v h
    rfl

/-- The start position lies in the block (R95). -/
theorem alignForm_position {aim target : Time} {j0 : Nat} {c0 : Time} (h : alignForm aim target = some (j0, c0)) : j0 ≤ 63 := by
  unfold alignForm at h
  split at h
  · dsimp only at h
    split at h
    · cases h
    · have hj := congrArg Prod.fst (Option.some.inj h)
      dsimp only at hj
      omega
  · have hj := congrArg Prod.fst (Option.some.inj h)
    dsimp only at hj
    omega

theorem align_placed {target aim : Time} {l m : Lane} {j0 : Nat} (h : l.align target aim = .placed m j0) :
    m.FracBounded ∧ j0 ≤ 63 := by
  unfold Lane.align at h
  split at h
  · cases h
  · rename_i j c0 hform
    dsimp only at h
    split at h
    · cases h
    · split at h
      · split at h
        · cases h
        · rename_i j1 c1 hform1
          cases h
          exact ⟨enterHead_frac _ (cursorAt_frac _ _), alignForm_position hform1⟩
      · cases h
        exact ⟨enterHead_frac _ (cursorAt_frac _ _), alignForm_position hform⟩

/-! ## What every lane's block is (R88 to R94) -/

/-- The three forms of a lane's block: silence, a run of positions from a cursor that came from the lane's own, and a start block. -/
inductive BlockForm (env : BoundaryEnv) (l : Lane) : Block → Prop
  | silent : BlockForm env l silence
  | produced (k : BlockKind) (step : Nat) (m : Lane) (hm : l.FracBounded → m.FracBounded) :
      BlockForm env l (m.produceBlock env.store k step).2
  | started (m : Lane) (j0 : Nat) (hm : m.FracBounded) (hj : j0 ≤ 63) : BlockForm env l (m.startBlock env j0).2

theorem BlockForm.of_lane {env : BoundaryEnv} {l m : Lane} {b : Block} (h : BlockForm env m b) (hm : l.FracBounded → m.FracBounded) :
    BlockForm env l b := by
  cases h with
  | silent => exact .silent
  | produced k step n hn => exact .produced k step n fun hl => hn (hm hl)
  | started n j0 hn hj => exact .started n j0 hn hj

theorem BlockForm.length {env : BoundaryEnv} {l : Lane} {b : Block} (h : BlockForm env l b) : b.length = 64 := by
  cases h with
  | silent => rfl
  | produced => exact produce_length ..
  | started m j0 _ hj => exact startBlock_length env m hj

theorem BlockForm.whole {env : BoundaryEnv} (hs : env.store.InStore) {l : Lane} (hl : l.FracBounded) {b : Block}
    (h : BlockForm env l b) : b.Whole := by
  cases h with
  | silent => exact silence_whole
  | produced k step m hm => exact produceBlock_whole hs k step (hm hl)
  | started m j0 hm hj => exact startBlock_whole hs hm hj

theorem workArmed_form (env : BoundaryEnv) (l : Lane) : BlockForm env l (l.workArmed env).2 := by
  unfold Lane.workArmed
  split
  · split
    · exact .silent
    · exact .silent
    · rename_i hplaced
      obtain ⟨hfrac, hj⟩ := align_placed hplaced
      exact .started _ _ hfrac hj
  · exact .silent

/-- The block of a lane that bridges does not use the cursor it had. -/
theorem workBridging_form (env : BoundaryEnv) (l m : Lane) : BlockForm env l (m.workBridging env).2 := by
  unfold Lane.workBridging
  split
  · exact .silent
  · dsimp only
    split
    · exact .silent
    · split
      · exact .silent
      · exact .silent
      · rename_i hplaced
        obtain ⟨hfrac, hj⟩ := align_placed hplaced
        exact .started _ _ hfrac hj

theorem workPurged_form (env : BoundaryEnv) (l : Lane) : BlockForm env l (l.workPurged env).2 := by
  unfold Lane.workPurged
  split
  · exact .silent
  · exact workBridging_form env l _

theorem workStarved_form (env : BoundaryEnv) (l : Lane) : BlockForm env l (l.workStarved env).2 := by
  unfold Lane.workStarved
  split
  · exact .silent
  · exact workBridging_form env l _

theorem workHeld_form (env : BoundaryEnv) (l : Lane) : BlockForm env l (l.workHeld env).2 := by
  unfold Lane.workHeld
  split
  · exact workPurged_form env l
  · split
    · exact .silent
    · exact workBridging_form env l _

theorem workPlaying_form (env : BoundaryEnv) (l : Lane) : BlockForm env l (l.workPlaying env).2 := by
  unfold Lane.workPlaying
  split
  · exact workPurged_form env l
  · split
    · exact .silent
    · dsimp only
      split
      · exact .produced .trim _ _ id
      · exact .produced .slip _ _ id

theorem stoppingBlock_form (env : BoundaryEnv) (l : Lane) : BlockForm env l (l.stoppingBlock env).2 := by
  unfold Lane.stoppingBlock
  split
  · split
    · exact .produced .stop _ _ id
    · exact .silent
  · exact .silent

theorem workState_form (env : BoundaryEnv) (l : Lane) : BlockForm env l (l.workState env).2 := by
  unfold Lane.workState
  split
  · exact .silent
  · exact .silent
  · exact .silent
  · exact .silent
  · exact workArmed_form env l
  · exact workPlaying_form env l
  · exact workBridging_form env l l
  · exact workStarved_form env l
  · exact workHeld_form env l
  · exact stoppingBlock_form env l

theorem boundaryWork_form (env : BoundaryEnv) (l : Lane) : BlockForm env l (l.boundaryWork env).block := by
  have acted : l.FracBounded → (l.cueStep env).1.FracBounded := fun hl => applyActions_frac _ _ (hl.of_same rfl)
  unfold Lane.boundaryWork
  dsimp only
  split
  · refine (workState_form env _).of_lane fun hl => ?_
    split
    · exact commit_frac (acted hl)
    · exact acted hl
  · exact .silent

/-- Settles O9: the block's form, and the range of each form. -/
theorem laneBlockInRange : Obligations.LaneBlockInRange := by
  intro env l hs hl
  obtain ⟨hlen, hrange⟩ := (boundaryWork_form env l).whole hs hl
  refine ⟨hlen, fun v hv => ?_⟩
  obtain ⟨⟨h1, h2⟩, h3, h4⟩ := hrange v hv
  exact ⟨h1, h2, h3, h4⟩

end Sys2Proof.Machine

/-! What a block boundary leaves in the mixer, the ports and SPC: the cues' work touches the mixer's list of gain actions alone, and the
output ports read the mixer that steps 1 to 3 of its work leave (R134, R141, R146, R149). -/

namespace Sys2Proof.Machine

/-! ## The cues' work at the mixer (R133, R174) -/

/-- Gain actions stand in the order of their cues' numbers (R133). -/
theorem insertGain_eq (a : GainAction) (l : List GainAction) :
    insertGain a l = l.orderedInsert (fun b c => b.cue.num < c.cue.num) a := by
  induction l with
  | nil => rfl
  | cons c rest ih =>
    by_cases h : c.cue.num ≤ a.cue.num
    · rw [insertGain, if_pos h, ih, List.orderedInsert_cons, if_neg (Nat.not_lt.mpr h)]
    · rw [insertGain, if_neg h, List.orderedInsert_cons, if_pos (Nat.lt_of_not_le h)]

theorem mem_insertGain (a b : GainAction) (l : List GainAction) : b ∈ insertGain a l ↔ b = a ∨ b ∈ l := by
  rw [insertGain_eq, List.mem_orderedInsert]

/-- The mixer after the cues' work at boundary k: only its list of gain actions differs, by records that expired at k. -/
structure GainsHanded (k : BlockIndex) (m n : Mixer) : Prop where
  frame : n = { m with actions := n.actions }
  expiry : ∀ a ∈ n.actions, a ∈ m.actions ∨ a.expiry = k
  kept : ∀ a ∈ m.actions, a ∈ n.actions

theorem GainsHanded.refl (k : BlockIndex) (m : Mixer) : GainsHanded k m m := ⟨rfl, fun _ h => .inl h, fun _ h => h⟩

theorem GainsHanded.trans {k : BlockIndex} {m n o : Mixer} (h : GainsHanded k m n) (g : GainsHanded k n o) : GainsHanded k m o := by
  refine ⟨?_, fun a ha => (g.expiry a ha).elim (h.expiry a) .inr, fun a ha => g.kept a (h.kept a ha)⟩
  rw [g.frame, h.frame]

theorem handToMixer_gains (s : State) (a : GainAction) : GainsHanded a.expiry s.mixer (s.handToMixer a).mixer := by
  refine ⟨rfl, fun b hb => ?_, fun b hb => (mem_insertGain _ b _).mpr (.inr hb)⟩
  rcases (mem_insertGain _ b _).mp hb with rfl | h
  · exact .inr rfl
  · exact .inl h

theorem raiseCues_mixer (fs : List CueFlag) (s : State) : (s.raiseCues fs).mixer = s.mixer := by
  induction fs generalizing s with
  | nil => rfl
  | cons f rest ih => exact (ih _).trans rfl

theorem cueWork_gains (k : BlockIndex) (o : List (CueId × Bool)) (s : State) (c : CueId) :
    GainsHanded k s.mixer (s.cueWork k o c).mixer := by
  simp only [State.cueWork, raiseCues_mixer]
  generalize (s.cues.get c).boundaryWork c k _ _ _ = w
  cases w.handed with
  | none => exact .refl k _
  | go i => exact .refl k _
  | halt i flush => exact .refl k _
  | gain i p g r => exact handToMixer_gains (s.setCue c w.cue) { cue := c, lane := i, port := p, gain := g, ramp := r, expiry := k }

theorem cuesWork_gains (k : BlockIndex) (o : List (CueId × Bool)) (s : State) : GainsHanded k s.mixer (s.cuesWork k o).mixer :=
  (((cueWork_gains k o s .cue0).trans (cueWork_gains k o _ .cue1)).trans (cueWork_gains k o _ .cue2)).trans (cueWork_gains k o _ .cue3)

/-! ## The mixer and the ports (R139, R141, R146, R149) -/

/-- The mixer as steps 1 to 3 of its work at the present boundary leave it (R141). -/
def State.leveledMixer (s : State) : Mixer := s.mixer.levels s.boundaryIndex (workedLanes s.lanesWork)

/-- The six lanes' blocks at the present boundary (R84). -/
def State.laneBlocks (s : State) : LaneMap Block := workedBlocks s.lanesWork

theorem countClips_frame (m : Mixer) (p : OutPort) (e : Bool) (b : LaneMap Block) :
    m.countClips p e b = { m with clips := (m.countClips p e b).clips } := by
  cases e <;> rfl

theorem countClips_clips_same (m : Mixer) (p : OutPort) (e : Bool) (b : LaneMap Block) :
    (m.countClips p e b).clips.get p = if e = true then satAdd (m.clips.get p) (m.portClips p b) else m.clips.get p := by
  cases e
  · rfl
  · exact PortPair.get_set_same ..

theorem countClips_clips_other (m : Mixer) {p q : OutPort} (e : Bool) (b : LaneMap Block) (h : q ≠ p) :
    (m.countClips p e b).clips.get q = m.clips.get q := by
  cases e
  · rfl
  · exact PortPair.get_set_other _ _ h

/-- The clips counted are those of the levels alone. -/
theorem portClips_countClips (m : Mixer) (p q : OutPort) (e : Bool) (b c : LaneMap Block) :
    (m.countClips p e b).portClips q c = m.portClips q c := by
  cases e <;> rfl

theorem portPairs_countClips (m : Mixer) (p q : OutPort) (e : Bool) (b c : LaneMap Block) :
    (m.countClips p e b).portPairs q c = m.portPairs q c := by
  cases e <;> rfl

theorem sounding_countClips (m : Mixer) (p q : OutPort) (e : Bool) (b : LaneMap Block) (playing : LaneMap Bool) :
    (m.countClips p e b).sounding q playing = m.sounding q playing := by
  cases e <;> rfl

theorem clipWork_mixer (s : State) (p : OutPort) (b : LaneMap Block) :
    (s.clipWork p b).mixer = s.mixer.countClips p (s.ports.get p).format.enable b := by
  unfold State.clipWork
  dsimp only
  split <;> rfl

theorem clipWork_portFlags (s : State) (p : OutPort) (b : LaneMap Block) :
    (s.clipWork p b).link.portFlags = s.link.portFlags
      ||| (if (s.ports.get p).format.enable = true ∧ s.mixer.portClips p b ≠ 0 then bitMask (clipFlag p).bit else 0) := by
  unfold State.clipWork
  dsimp only
  by_cases h : (s.ports.get p).format.enable = true ∧ s.mixer.portClips p b ≠ 0
  · rw [if_pos h, if_pos (by simpa using h)]
    rfl
  · rw [if_neg h, if_neg (by simpa using h)]
    exact (BitVec.or_zero ..).symm

/-- The mixer with both ports' clips counted, as a boundary leaves it but for the gain actions the cues hand over. -/
def State.countedMixer (s : State) : Mixer :=
  (s.leveledMixer.countClips .spa s.ports.spa.format.enable s.laneBlocks).countClips .spb s.ports.spb.format.enable s.laneBlocks

theorem countedMixer_frame (s : State) : s.countedMixer = { s.leveledMixer with clips := s.countedMixer.clips } := by
  rw [State.countedMixer, countClips_frame, countClips_frame s.leveledMixer]

theorem countedMixer_clips (s : State) (p : OutPort) :
    s.countedMixer.clips.get p = if (s.ports.get p).format.enable = true
      then satAdd (s.leveledMixer.clips.get p) (s.leveledMixer.portClips p s.laneBlocks) else s.leveledMixer.clips.get p := by
  unfold State.countedMixer
  cases p with
  | spa => exact (countClips_clips_other _ _ _ (by decide)).trans (countClips_clips_same ..)
  | spb =>
    rw [countClips_clips_same, countClips_clips_other _ _ _ (by decide), portClips_countClips]
    rfl

/-- The state between the lanes' work and the cues' (R4). -/
def State.playedOut (s : State) : State :=
  ({ s with boundaryDue := false }.setLanes (workedLanes s.lanesWork)).outputWork s.laneBlocks
    (runEntered s.lanes (workedLanes s.lanesWork))

theorem boundaryWork_eq (s : State) :
    s.boundaryWork = s.playedOut.cuesWork s.boundaryIndex (boundaryOutcomes s.lanesWork s.mixer s.boundaryIndex) := rfl

theorem boundaryWork_frame (s : State) : CueFrame s.playedOut s.boundaryWork := cuesWork_frame _ _ _

theorem playedOut_lanes (s : State) : s.playedOut.lanes = workedLanes s.lanesWork := outputWork_lanes _ _ _

theorem playedOut_mixer (s : State) : s.playedOut.mixer = s.countedMixer := by
  simp only [State.playedOut, State.outputWork, State.inPortWork, State.refreshWatch, State.outPortWork, State.setPort, clipWork_mixer,
    clipWork_ports]
  rfl

/-- The mixer after a boundary (R134, R139, R141). -/
theorem boundaryWork_gains (s : State) : GainsHanded s.boundaryIndex s.countedMixer s.boundaryWork.mixer := by
  rw [← playedOut_mixer, boundaryWork_eq]
  exact cuesWork_gains _ _ _

theorem boundaryWork_mixer (s : State) :
    s.boundaryWork.mixer = { s.leveledMixer with clips := s.countedMixer.clips, actions := s.boundaryWork.mixer.actions } := by
  rw [(boundaryWork_gains s).frame, countedMixer_frame]

theorem boundaryWork_channel (s : State) (i : LaneId) (p : OutPort) :
    s.boundaryWork.mixer.channel i p = s.leveledMixer.channel i p := by
  rw [boundaryWork_mixer]
  rfl

/-- The lane after a boundary in the fields its actions do not hold. -/
theorem boundaryWork_laneState (s : State) (i : LaneId) :
    (s.boundaryWork.lanes.get i).state = ((workedLanes s.lanesWork).get i).state := by
  rw [(boundaryWork_frame s).lanes i, playedOut_lanes]

theorem workedLanes_get (s : State) (i : LaneId) :
    (workedLanes s.lanesWork).get i = ((s.lanes.get i).boundaryWork s.boundaryEnv).lane := by
  simp [workedLanes, State.lanesWork]

/-- An output port after a boundary (R143, R146, R147, R149). -/
theorem boundaryWork_port (s : State) (p : OutPort) :
    s.boundaryWork.ports.get p = (s.ports.get p).boundaryWork s.count (s.leveledMixer.portPairs p s.laneBlocks)
      (s.leveledMixer.sounding p (playingLanes (workedLanes s.lanesWork))) := by
  rw [(boundaryWork_frame s).ports]
  simp only [State.playedOut, State.outputWork, State.inPortWork, State.refreshWatch, State.outPortWork, State.setPort, clipWork_mixer,
    clipWork_ports, portPairs_countClips, sounding_countClips, clipWork_lanes, (clipWork_part _ _ _).count]
  cases p <;> rfl

theorem boundaryWork_portFlags (s : State) :
    s.boundaryWork.link.portFlags = s.link.portFlags
      ||| (if s.ports.spa.format.enable = true ∧ s.leveledMixer.portClips .spa s.laneBlocks ≠ 0 then 0x80 else 0)
      ||| (if s.ports.spb.format.enable = true ∧ s.leveledMixer.portClips .spb s.laneBlocks ≠ 0 then 0x40 else 0) := by
  have spa : bitMask (clipFlag .spa).bit = 0x80 := by decide
  have spb : bitMask (clipFlag .spb).bit = 0x40 := by decide
  rw [(boundaryWork_frame s).portFlags, ← spa, ← spb]
  simp only [State.playedOut, State.outputWork, State.inPortWork, State.refreshWatch, State.outPortWork, State.setPort,
    clipWork_portFlags, clipWork_mixer, clipWork_ports, portClips_countClips]
  rfl

/-- SPC after a boundary (R143, R150, R153). -/
theorem boundaryWork_spc (s : State) :
    s.boundaryWork.spc = { s.spc.boundaryWork with
      watch := if (s.spc.format.enable && s.spc.mode == .slave && (workedLanes s.lanesWork).toList.any Lane.isRunning) = true then
          (if (runEntered s.lanes (workedLanes s.lanesWork) || s.spc.watch == .idle) = true then .watching s.count else s.spc.watch)
        else .idle } := by
  rw [(boundaryWork_frame s).spc]
  simp only [State.playedOut, State.outputWork, State.inPortWork, State.refreshWatch, State.watchCondition, State.outPortWork,
    State.setPort, clipWork_spc, clipWork_lanes, (clipWork_part _ _ _).count]
  rfl

/-! ## The mixer's levels (R130, R134 to R136) -/

/-- A run of gain actions at a channel: the last of the channel's is the one in force (R134). -/
theorem foldl_applyGain_channel (i : LaneId) (p : OutPort) (as : List GainAction) (m : Mixer) :
    (as.foldl Mixer.applyGain m).channel i p =
      ((as.filter fun a => decide (a.lane = i) && decide (a.port = p)).getLast?).elim (m.channel i p)
        fun a => (m.channel i p).beginRamp a.gain a.ramp := by
  induction as generalizing m with
  | nil => rfl
  | cons a rest ih =>
    rw [List.foldl_cons, ih]
    by_cases h : a.lane = i ∧ a.port = p
    · obtain ⟨rfl, rfl⟩ := h
      rw [List.filter_cons_of_pos (by simp), List.getLast?_cons]
      have begun : (m.applyGain a).channel a.lane a.port = (m.channel a.lane a.port).beginRamp a.gain a.ramp :=
        Mixer.channel_setChannel_same ..
      rw [begun]
      cases (List.filter (fun b => decide (b.lane = a.lane) && decide (b.port = a.port)) rest).getLast? <;> rfl
    · rw [List.filter_cons_of_neg (by simpa using h)]
      have other : (m.applyGain a).channel i p = m.channel i p := Mixer.channel_setChannel_other _ _ (by tauto)
      rw [other]

theorem foldl_applyGain_frame (as : List GainAction) (m : Mixer) :
    as.foldl Mixer.applyGain m = { m with channels := (as.foldl Mixer.applyGain m).channels } := by
  induction as generalizing m with
  | nil => rfl
  | cons a rest ih =>
    rw [List.foldl_cons, ih]
    rfl

/-- The channel from which a boundary's ramp step goes out (R134). -/
theorem leveledMixer_channel (s : State) (i : LaneId) (p : OutPort) :
    s.leveledMixer.channel i p = (((s.mixer.actions.filter fun a =>
        decide (a.expiry + 1 = s.boundaryIndex) && decide (a.lane = i) && decide (a.port = p)).getLast?).elim (s.mixer.channel i p)
      fun a => (s.mixer.channel i p).beginRamp a.gain a.ramp).rampStep := by
  have step : s.leveledMixer.channel i p = ((s.mixer.cueStep s.boundaryIndex).channel i p).rampStep := by
    simp only [State.leveledMixer, Mixer.levels, Mixer.stepDuck, Mixer.stepRamps, Mixer.channel, LaneMap.get_mapId]
    cases p <;> rfl
  rw [step, Mixer.cueStep, foldl_applyGain_channel, Mixer.dueActions, List.filter_filter]
  have same : (fun a : GainAction => (decide (a.lane = i) && decide (a.port = p)) && (a.expiry + 1 == s.boundaryIndex)) =
      fun a => decide (a.expiry + 1 = s.boundaryIndex) && decide (a.lane = i) && decide (a.port = p) := by
    funext a
    rw [Bool.and_comm, beq_eq_decide, Bool.and_assoc]
  rw [same]
  rfl

/-- What steps 1 to 3 of the mixer's work leave unchanged (R141). -/
theorem leveledMixer_frame (s : State) :
    s.leveledMixer = { s.mixer with
      channels := s.leveledMixer.channels
      duckLevel := s.leveledMixer.duckLevel
      actions := s.mixer.actions.filter fun a => a.expiry + 1 != s.boundaryIndex } := by
  simp only [State.leveledMixer, Mixer.levels, Mixer.cueStep]
  rw [foldl_applyGain_frame]
  rfl

theorem leveledMixer_duckLevel (s : State) (i : LaneId) :
    s.leveledMixer.duckLevel.get i = s.mixer.slew (s.mixer.duckLevel.get i)
      (s.mixer.duckTarget (playingLanes (workedLanes s.lanesWork)) (s.mixer.duckClass.get i)) := by
  simp only [State.leveledMixer, Mixer.levels, Mixer.cueStep]
  rw [foldl_applyGain_frame]
  simp only [Mixer.stepDuck, Mixer.stepRamps, LaneMap.get_mapId]
  rfl

/-- A truncated part of a way lies on the way (R130). -/
theorem tdiv_between (d : Int) {b n : Nat} (hb : b ≤ n) (hn : 0 < n) : min 0 d ≤ Int.tdiv (d * b) n ∧ Int.tdiv (d * b) n ≤ max 0 d := by
  have up : ∀ e : Int, 0 ≤ e → 0 ≤ Int.tdiv (e * b) n ∧ Int.tdiv (e * b) n ≤ e := by
    intro e he
    have hpos : 0 ≤ e * b := by positivity
    rw [Int.tdiv_eq_ediv_of_nonneg hpos]
    refine ⟨Int.ediv_nonneg hpos (by omega), Int.ediv_le_of_le_mul (by omega) ?_⟩
    exact Int.mul_le_mul_of_nonneg_left (by omega) he
  rcases Int.le_total 0 d with h | h
  · have := up d h
    omega
  · have neg := up (-d) (by omega)
    rw [Int.neg_mul, Int.neg_tdiv] at neg
    omega

/-- A step of a ramp that is not complete (R130). -/
theorem rampStep_running {c : Channel} (h : c.b < c.n) :
    c.rampStep.b = c.b + 1 ∧
    (c.rampStep.current : Int) = c.start + Int.tdiv (((c.target : Int) - c.start) * (c.b + 1)) c.n ∧
    min c.start c.target ≤ c.rampStep.current ∧ c.rampStep.current ≤ max c.start c.target ∧
    (c.rampStep.b = c.n → c.rampStep.current = c.target) ∧
    c.rampStep.start = c.start ∧ c.rampStep.target = c.target ∧ c.rampStep.n = c.n ∧ c.rampStep.map = c.map := by
  have stepped : c.rampStep = { c with
      b := c.b + 1
      current := ((c.start : Int) + Int.tdiv (((c.target : Int) - c.start) * (c.b + 1 : Nat)) c.n).toNat } := if_pos h
  have between := tdiv_between ((c.target : Int) - c.start) (Nat.succ_le_of_lt h) (by omega)
  have whole : c.b + 1 = c.n → Int.tdiv (((c.target : Int) - c.start) * (c.b + 1 : Nat)) c.n = (c.target : Int) - c.start := by
    intro e
    rw [e, Int.mul_tdiv_cancel _ (by omega)]
  rw [stepped]
  generalize hx : Int.tdiv (((c.target : Int) - c.start) * (c.b + 1 : Nat)) c.n = x at between whole
  have cast : ((c.b + 1 : Nat) : Int) = (c.b : Int) + 1 := rfl
  rw [cast] at hx
  rw [hx]
  dsimp only
  refine ⟨rfl, by omega, by omega, by omega, fun e => ?_, rfl, rfl, rfl, rfl⟩
  have := whole e
  omega

theorem rampStep_complete {c : Channel} (h : c.n ≤ c.b) : c.rampStep = c := if_neg (Nat.not_lt.mpr h)

theorem ceilDiv_toNat (a b : Nat) : (ceilDiv a b).toNat = (a + b - 1) / b := by
  rcases Nat.eq_zero_or_pos b with rfl | hb
  · simp [ceilDiv]
  · have hq := Nat.div_add_mod (a + b - 1) b
    have hr := Nat.mod_lt (a + b - 1) hb
    generalize (a + b - 1) / b = q at hq ⊢
    generalize (a + b - 1) % b = r at hq hr
    have hneg : -(a : Int) / b = -q := by
      have key : -(a : Int) = (b : Int) * (-(q : Int)) + (b - 1 - r) := by
        have : (a : Int) + b - 1 = b * q + r := by
          have := congrArg (Nat.cast : Nat → Int) hq
          push_cast at this
          omega
        linarith
      rw [key, Int.mul_add_ediv_left _ _ (by omega), Int.ediv_eq_zero_of_lt (by omega) (by omega), Int.add_zero]
    rw [ceilDiv, hneg]
    omega

/-- A duck level moves toward its target and not past it (R136). -/
theorem slew_down (m : Mixer) {level target : Nat} (h : target < level) :
    m.slew level target = max target (level - (32768 + m.attack - 1) / m.attack) := by
  rw [Mixer.slew, if_pos h, ← ceilDiv_toNat]
  rfl

theorem slew_up (m : Mixer) {level target : Nat} (h : level ≤ target) :
    m.slew level target = min target (level + (32768 + m.release - 1) / m.release) := by
  rw [Mixer.slew, if_neg (Nat.not_lt.mpr h), ← ceilDiv_toNat]
  split
  · rfl
  · omega

theorem LaneId.mem_list (i : LaneId) : i ∈ LaneId.list := by cases i <;> decide

theorem classPlaying_iff (m : Mixer) (lanes : LaneMap Lane) (c : Nat) :
    m.classPlaying (playingLanes lanes) c = true ↔ ∃ j, (lanes.get j).state = .playing ∧ m.duckClass.get j = c := by
  simp [Mixer.classPlaying, playingLanes, List.any_eq_true, LaneId.mem_list]

theorem exec_blockBoundary {s : State} (hr : s.running = true) (hd : s.boundaryDue = true) :
    exec .blockBoundary s = .next s.boundaryWork := by
  refine congrArg Host.Outcome.next (if_pos ?_)
  rw [hr, hd]
  rfl

/-- The channel that the last due gain action of it leaves, if one is due. -/
theorem begun_eq (o : Option GainAction) (c : Channel) :
    o.elim c (fun a => c.beginRamp a.gain a.ramp) = (match o with
      | none => c
      | some a => { map := c.map, current := c.current, start := c.current, target := a.gain, n := a.ramp, b := 0 }) := by
  cases o <;> rfl

/-- Settles O16: the channel's ramp and the lane's duck level, each step by its rule. -/
theorem boundaryStepsTheMixer : Obligations.BoundaryStepsTheMixer := by
  intro s i hr hd
  have channel := boundaryWork_channel s i
  have frame := boundaryWork_mixer s
  have gains := boundaryWork_gains s
  have left : s.countedMixer.actions = s.mixer.actions.filter fun a => a.expiry + 1 != s.boundaryIndex := by
    rw [countedMixer_frame, leveledMixer_frame]
  have duck : s.boundaryWork.mixer.duckLevel.get i = s.mixer.slew (s.mixer.duckLevel.get i)
      (s.mixer.duckTarget (playingLanes (workedLanes s.lanesWork)) (s.mixer.duckClass.get i)) := by
    rw [frame]
    exact leveledMixer_duckLevel s i
  have sounds : ∀ c, s.mixer.classPlaying (playingLanes (workedLanes s.lanesWork)) c = true ↔
      ∃ j, (s.boundaryWork.lanes.get j).state = .playing ∧ s.mixer.duckClass.get j = c := by
    intro c
    simp only [classPlaying_iff, boundaryWork_laneState]
  rw [leveledMixer_frame] at frame
  refine ⟨s.boundaryWork, fun p => ((s.mixer.actions.filter fun a =>
      decide (a.expiry + 1 = s.boundaryIndex) && decide (a.lane = i) && decide (a.port = p)).getLast?).elim (s.mixer.channel i p)
      fun a => (s.mixer.channel i p).beginRamp a.gain a.ramp,
    fun c => s.mixer.classPlaying (playingLanes (workedLanes s.lanesWork)) c = true,
    s.mixer.duckTarget (playingLanes (workedLanes s.lanesWork)) (s.mixer.duckClass.get i),
    exec_blockBoundary hr hd, fun p => ?_, fun p => ?_, fun a ha => ?_, fun a ha he => ?_, sounds, fun hc h3 => ?_, fun hc h2 h3 => ?_,
    fun hc h1 h2 h3 => ?_, fun h => ?_, fun h => ?_, fun h => ?_, ?_, ?_, ?_⟩
  · exact begun_eq _ _
  · rw [channel, leveledMixer_channel]
    exact ⟨rampStep_running, rampStep_complete⟩
  · rcases gains.expiry a ha with h | h
    · rw [left] at h
      exact bne_iff_ne.mp (List.mem_filter.mp h).2
    · rw [h]
      show s.boundaryIndex + 1 ≠ s.boundaryIndex
      simp
  · refine gains.kept a ?_
    rw [left]
    exact List.mem_filter.mpr ⟨ha, bne_iff_ne.mpr he⟩
  · exact if_pos ⟨hc, h3⟩
  · rw [Mixer.duckTarget, if_neg fun e => h3 e.2, if_pos ⟨hc, h2⟩]
  · rw [Mixer.duckTarget, if_neg fun e => h3 e.2, if_neg fun e => h2 e.2, if_pos ⟨hc, h1⟩]
  · rw [Mixer.duckTarget, if_neg fun e => h 3 e.1 (by decide) e.2, if_neg fun e => h 2 e.1 (by decide) e.2,
      if_neg fun e => h 1 e.1 (by decide) e.2]
    rfl
  · rw [duck, slew_down _ h]
  · rw [duck, slew_up _ h]
  · rw [frame]
  · rw [frame]
  · rw [frame]

end Sys2Proof.Machine

/-! A block boundary of the output ports and SPC: the sums of the lanes' blocks, the clips, the hang count, and the clock watch
(R138, R139, R143, R146, R149, R153); and the start of the count, which is boundary 0 (R3, R199). -/

namespace Sys2Proof.Machine

/-! ## Sums (R138, R139) -/

/-- The left or the right value of a pair. -/
def pickSide (right : Bool) (v : Int × Int) : Int := if right then v.2 else v.1

/-- A lane's contribution to one side of a block position of a port (R138). -/
def Mixer.laneSide (m : Mixer) (p : OutPort) (blocks : LaneMap Block) (j : Nat) (right : Bool) (i : LaneId) : Int :=
  pickSide right (contribution (m.channel i p).map (m.effectiveGain p i) ((blocks.get i).getD j (0, 0)))

/-- The sum of the six lanes on one side of a position (R138). -/
def Mixer.sideSum (m : Mixer) (p : OutPort) (blocks : LaneMap Block) (j : Nat) (right : Bool) : Int :=
  (LaneId.list.map (m.laneSide p blocks j right)).sum

theorem eq_range_map_getD {α : Type} (b : List α) (d : α) : b = (List.range b.length).map fun j => b.getD j d := by
  apply List.ext_getElem
  · simp
  · intro n h _
    simp [h]

/-- Adding blocks position by position, each given by its values at the positions. -/
theorem foldl_zipWith_addPair (n : Nat) (g : LaneId → Nat → Int × Int) (is : List LaneId) (f : Nat → Int × Int) :
    (is.map fun i => (List.range n).map (g i)).foldl (List.zipWith addPair) ((List.range n).map f) =
      (List.range n).map fun j => ((f j).1 + (is.map fun i => (g i j).1).sum, (f j).2 + (is.map fun i => (g i j).2).sum) := by
  induction is generalizing f with
  | nil => simp
  | cons i rest ih =>
    have added : List.zipWith addPair ((List.range n).map f) ((List.range n).map (g i)) =
        (List.range n).map fun j => addPair (f j) (g i j) := by
      rw [List.zipWith_map, List.zipWith_self]
    rw [List.map_cons, List.foldl_cons, added, ih]
    refine List.map_congr_left fun j _ => ?_
    simp only [addPair, List.map_cons, List.sum_cons, Int.add_assoc]

/-- With whole blocks, a port's sums position by position (R138). -/
theorem portSums_eq (m : Mixer) (p : OutPort) {blocks : LaneMap Block} (h : ∀ i, (blocks.get i).length = 64) :
    m.portSums p blocks = (List.range 64).map fun j => (m.sideSum p blocks j false, m.sideSum p blocks j true) := by
  have lane : ∀ i, m.laneContribution p blocks i = (List.range 64).map fun j =>
      contribution (m.channel i p).map (m.effectiveGain p i) ((blocks.get i).getD j (0, 0)) := by
    intro i
    rw [Mixer.laneContribution]
    conv_lhs => rw [eq_range_map_getD (blocks.get i) (0, 0), h i, List.map_map]
    rfl
  have silent : silence = (List.range 64).map fun _ => ((0, 0) : Int × Int) := rfl
  rw [Mixer.portSums, silent, List.map_congr_left fun i _ => lane i, foldl_zipWith_addPair]
  simp only [Int.zero_add]
  rfl

/-- A port's scaled sum on one side of a position (R138). -/
def Mixer.sideTotal (m : Mixer) (p : OutPort) (blocks : LaneMap Block) (j : Nat) (right : Bool) : Int :=
  m.sideSum p blocks j right * m.master.get p / 32768

theorem portScaled_eq (m : Mixer) (p : OutPort) {blocks : LaneMap Block} (h : ∀ i, (blocks.get i).length = 64) :
    m.portScaled p blocks = (List.range 64).map fun j => (m.sideTotal p blocks j false, m.sideTotal p blocks j true) := by
  rw [Mixer.portScaled, portSums_eq m p h, List.map_map]
  rfl

theorem portPairs_eq (m : Mixer) (p : OutPort) {blocks : LaneMap Block} (h : ∀ i, (blocks.get i).length = 64) :
    m.portPairs p blocks = (List.range 64).map fun j =>
      (max (-8388608) (min 8388607 (m.sideTotal p blocks j false)), max (-8388608) (min 8388607 (m.sideTotal p blocks j true))) := by
  rw [Mixer.portPairs, portScaled_eq m p h, List.map_map]
  rfl

/-- A value that the clamp leaves is within 24 bits (R139). -/
theorem clampSample_eq_iff (x : Int) : clampSample x = x ↔ -8388608 ≤ x ∧ x ≤ 8388607 := by
  simp only [clampSample, clampInt]
  omega

theorem portClips_eq (m : Mixer) (p : OutPort) {blocks : LaneMap Block} (h : ∀ i, (blocks.get i).length = 64) :
    m.portClips p blocks = ((List.range 64).map fun j =>
      (if -8388608 ≤ m.sideTotal p blocks j false ∧ m.sideTotal p blocks j false ≤ 8388607 then 0 else 1) +
        (if -8388608 ≤ m.sideTotal p blocks j true ∧ m.sideTotal p blocks j true ≤ 8388607 then 0 else 1)).sum := by
  rw [Mixer.portClips, portScaled_eq m p h, List.map_map]
  refine congrArg List.sum (List.map_congr_left fun j _ => ?_)
  simp only [Function.comp, clipsAt, clampSample_eq_iff]

/-- A contribution's side by the channel map (R129, R138). -/
theorem pickSide_contribution (map : ChannelMap) (gain : Nat) (v : Int × Int) (right : Bool) :
    pickSide right (contribution map gain v) = (match map, right with
      | .stereo, false => v.1
      | .stereo, true => v.2
      | .swap, false => v.2
      | .swap, true => v.1
      | .left, _ => v.1
      | .right, _ => v.2
      | .mono, _ => (v.1 + v.2) / 2) * (gain : Int) / 32768 := by
  cases map <;> cases right <;> rfl

theorem laneBlocks_length (s : State) (i : LaneId) : (s.laneBlocks.get i).length = 64 := by
  simpa [State.laneBlocks, workedBlocks, State.lanesWork] using (boundaryWork_form s.boundaryEnv (s.lanes.get i)).length

theorem laneBlocks_get (s : State) (i : LaneId) :
    s.laneBlocks.get i = ((s.lanes.get i).boundaryWork s.boundaryEnv).block := by
  simp [State.laneBlocks, workedBlocks, State.lanesWork]

/-! ## The output ports (R143, R146, R147, R149) -/

theorem hangStep_sounding (p : OutPortState) (base : Time) :
    (p.hangStep base true).hang = 256 ∧ (p.hangStep base true).tailEnd = none := ⟨rfl, rfl⟩

theorem hangStep_silent (p : OutPortState) (base : Time) :
    (p.hangStep base false).hang = p.hang - 1 ∧
    (p.hangStep base false).tailEnd = (if p.hang ≠ 1 then p.tailEnd
      else if p.latency = 0 then none else some (base + BitVec.ofNat 48 p.latency)) := by
  have ticks : addTicks base p.latency = base + BitVec.ofNat 48 p.latency := by rw [addTicks, BitVec.ofInt_natCast]
  unfold OutPortState.hangStep
  rw [if_neg Bool.false_ne_true, ← ticks]
  by_cases h0 : p.hang = 0
  · rw [if_pos h0, if_pos (by omega)]
    exact ⟨by omega, rfl⟩
  · rw [if_neg h0]
    by_cases h1 : p.hang = 1
    · rw [if_pos h1, if_neg (not_not_intro h1), h1]
      exact ⟨rfl, rfl⟩
    · rw [if_neg h1, if_pos h1]
      exact ⟨rfl, rfl⟩

theorem portWork_enabled {p : OutPortState} (h : p.format.enable = true) (base : Time) (pairs : Block) (sounding : Bool) :
    p.boundaryWork base pairs sounding =
      { p with
        inForce := p.format
        emission := p.emission ++ [{ base := base, pairs := pairs }]
        hang := (p.hangStep base sounding).hang
        tailEnd := (p.hangStep base sounding).tailEnd } := by
  rw [OutPortState.boundaryWork, if_pos h]
  dsimp only
  unfold OutPortState.hangStep
  split
  · rfl
  · dsimp only
    split
    · rfl
    · split <;> rfl

theorem portWork_disabled {p : OutPortState} (h : p.format.enable = false) (base : Time) (pairs : Block) (sounding : Bool) :
    p.boundaryWork base pairs sounding =
      { p with inForce := p.format, emission := [], staging := (0, 0), hang := 0, tailEnd := none } :=
  if_neg (by rw [h]; exact Bool.false_ne_true)

theorem sounding_iff (m : Mixer) (p : OutPort) (lanes : LaneMap Lane) :
    m.sounding p (playingLanes lanes) = true ↔ ∃ i, (lanes.get i).state = .playing ∧ (m.channel i p).current ≠ 0 := by
  simp [Mixer.sounding, playingLanes, List.any_eq_true, LaneId.mem_list]

/-! ## SPC (R143, R150, R153) -/

theorem keptAssembly_eq (p : InPortState) :
    p.keptAssembly = p.assembly.map fun a =>
      if p.selectTaken = true ∧ a.slot = .left then { a with format := { p.format with polarity := a.format.polarity } } else a := by
  unfold InPortState.keptAssembly InPortState.openedNow
  cases p.assembly with
  | none => simp
  | some a =>
    by_cases h : p.selectTaken = true ∧ a.slot = .left
    · simp [h]
    · rw [if_neg (by simpa using h), Option.map_some, if_neg h]

theorem runEntered_iff (before after : LaneMap Lane) :
    runEntered before after = true ↔ ∃ i, (after.get i).isRunning = true ∧ (after.get i).runNumber ≠ (before.get i).runNumber := by
  simp [runEntered, List.any_eq_true, LaneId.mem_list]

theorem boundaryWork_running (s : State) (i : LaneId) :
    (s.boundaryWork.lanes.get i).isRunning = ((workedLanes s.lanesWork).get i).isRunning ∧
      (s.boundaryWork.lanes.get i).runNumber = ((workedLanes s.lanesWork).get i).runNumber := by
  rw [(boundaryWork_frame s).lanes i, playedOut_lanes]
  exact ⟨rfl, rfl⟩

/-- The clock watch after a boundary, outside its condition (R153). -/
theorem boundaryWork_watch_idle {s : State}
    (h : s.spc.format.enable = false ∨ s.spc.mode = .master ∨ ∀ i, (s.boundaryWork.lanes.get i).isRunning = false) :
    s.boundaryWork.spc.watch = .idle := by
  rw [boundaryWork_spc]
  refine if_neg ?_
  rcases h with h | h | h
  · simp [h]
  · simp [h]
  · have none_running : (workedLanes s.lanesWork).toList.any Lane.isRunning = false :=
      LaneMap.any_toList_false fun i => (boundaryWork_running s i).1 ▸ h i
    simp [none_running]

/-- The clock watch after a boundary, within its condition (R153). -/
theorem boundaryWork_watch_on {s : State} (he : s.spc.format.enable = true) (hm : s.spc.mode = .slave)
    (hi : ∃ i, (s.boundaryWork.lanes.get i).isRunning = true) :
    s.boundaryWork.spc.watch =
      if (runEntered s.lanes s.boundaryWork.lanes || s.spc.watch == .idle) = true then .watching s.count else s.spc.watch := by
  have same : runEntered s.lanes s.boundaryWork.lanes = runEntered s.lanes (workedLanes s.lanesWork) := by
    simp only [runEntered, boundaryWork_running]
  have running : (workedLanes s.lanesWork).toList.any Lane.isRunning = true := by
    obtain ⟨i, h⟩ := hi
    exact (LaneMap.any_toList _ _).mpr ⟨i, (boundaryWork_running s i).1 ▸ h⟩
  rw [boundaryWork_spc, same]
  exact if_pos (by rw [he, hm, running]; rfl)

/-! ## The boundary (R4) -/

theorem boundaryWork_config (s : State) (i : LaneId) : (s.boundaryWork.lanes.get i).config = (s.lanes.get i).config := by
  rw [boundaryWork_lane]
  exact (boundaryWork_worked _ _).config

/-- What an output port does at a boundary, by its stored enable (R143, R146, R147, R149). -/
theorem boundaryWork_port_enabled {s : State} {p : OutPort} (h : (s.ports.get p).format.enable = true) :
    (s.boundaryWork.ports.get p).emission = (s.ports.get p).emission ++ [{
      base := s.count, pairs := s.leveledMixer.portPairs p s.laneBlocks }] ∧
    s.boundaryWork.mixer.clips.get p = min (s.mixer.clips.get p + s.leveledMixer.portClips p s.laneBlocks) 65535 ∧
    ((∃ i, (s.boundaryWork.lanes.get i).state = .playing ∧ (s.boundaryWork.mixer.channel i p).current ≠ 0) →
      (s.boundaryWork.ports.get p).hang = 256 ∧ (s.boundaryWork.ports.get p).tailEnd = none) ∧
    ((∀ i, (s.boundaryWork.lanes.get i).state = .playing → (s.boundaryWork.mixer.channel i p).current = 0) →
      (s.boundaryWork.ports.get p).hang = (s.ports.get p).hang - 1 ∧
      (s.boundaryWork.ports.get p).tailEnd = (if (s.ports.get p).hang ≠ 1 then (s.ports.get p).tailEnd
        else if (s.ports.get p).latency = 0 then none
        else some (s.count + BitVec.ofNat 48 (s.ports.get p).latency))) := by
  have sounds := sounding_iff s.leveledMixer p (workedLanes s.lanesWork)
  rw [boundaryWork_port, portWork_enabled h]
  simp only [boundaryWork_laneState, boundaryWork_channel]
  refine ⟨trivial, ?_, fun hp => ?_, fun hp => ?_⟩
  · rw [boundaryWork_mixer]
    dsimp only
    rw [countedMixer_clips, if_pos h, leveledMixer_frame]
    rfl
  · rw [sounds.mpr hp]
    exact hangStep_sounding _ _
  · have silent : s.leveledMixer.sounding p (playingLanes (workedLanes s.lanesWork)) = false := by
      refine Bool.eq_false_iff.mpr fun e => ?_
      obtain ⟨i, hs, hc⟩ := sounds.mp e
      exact hc (hp i hs)
    rw [silent]
    exact hangStep_silent _ _

theorem boundaryWork_port_disabled {s : State} {p : OutPort} (h : (s.ports.get p).format.enable = false) :
    (s.boundaryWork.ports.get p).emission = [] ∧ (s.boundaryWork.ports.get p).staging = (0, 0) ∧
      (s.boundaryWork.ports.get p).hang = 0 ∧ (s.boundaryWork.ports.get p).tailEnd = none ∧
      (s.boundaryWork.ports.get p).active = false ∧ s.boundaryWork.mixer.clips.get p = s.mixer.clips.get p := by
  rw [boundaryWork_port, portWork_disabled h]
  refine ⟨rfl, rfl, rfl, rfl, rfl, ?_⟩
  rw [boundaryWork_mixer]
  dsimp only
  rw [countedMixer_clips, if_neg (by rw [h]; exact Bool.false_ne_true), leveledMixer_frame]

theorem boundaryWork_port_formats (s : State) (p : OutPort) :
    (s.boundaryWork.ports.get p).inForce = (s.ports.get p).format ∧
      (s.boundaryWork.ports.get p).format = (s.ports.get p).format := by
  rw [boundaryWork_port]
  cases h : (s.ports.get p).format.enable with
  | true =>
    rw [portWork_enabled h]
    exact ⟨rfl, rfl⟩
  | false =>
    rw [portWork_disabled h]
    exact ⟨rfl, rfl⟩

/-- A ramp's start and its steps leave the channel map (R130, R131, R134). -/
theorem leveledMixer_map (s : State) (i : LaneId) (p : OutPort) :
    (s.leveledMixer.channel i p).map = (s.mixer.channel i p).map := by
  have step : ∀ c : Channel, c.rampStep.map = c.map := by
    intro c
    unfold Channel.rampStep
    split <;> rfl
  rw [leveledMixer_channel, step]
  cases (s.mixer.actions.filter _).getLast? <;> rfl

/-- Settles O8: the boundary block by block, with the sums of `portPairs_eq`. -/
theorem boundaryTakesEveryBlock : Obligations.BoundaryTakesEveryBlock := by
  intro s hr hd
  have whole := laneBlocks_length s
  have part := boundaryWork_part s
  have spc := boundaryWork_spc s
  refine ⟨s.boundaryWork, fun p j right => s.leveledMixer.sideSum p s.laneBlocks j right,
    fun p j right => s.leveledMixer.sideTotal p s.laneBlocks j right, fun p => s.leveledMixer.portClips p s.laneBlocks,
    exec_blockBoundary hr hd, part.boundaryDue, part.periodsDue, fun p j right => ?_, fun p j right => ?_,
    fun p => portClips_eq _ p whole, fun p => ?_, boundaryWork_portFlags s, ?_, fun i p => ?_, ?_, ?_, fun he => ?_, fun he => ?_,
    fun he hm hi => ⟨fun h => ?_, fun hw h => ?_⟩, boundaryWork_watch_idle, fun i => ⟨boundaryWork_lane s i, boundaryWork_config s i⟩,
    part.count, part.running, part.tracker, part.strobe, part.store, part.lines, part.pending, part.samples, part.inbound,
    part.outbound, part.transaction, part.enables, part.trackerFlags⟩
  · refine congrArg List.sum (List.map_congr_left fun i _ => ?_)
    have level : s.boundaryWork.mixer.duckLevel = s.leveledMixer.duckLevel := by rw [boundaryWork_mixer]
    rw [boundaryWork_channel, level, ← laneBlocks_get]
    exact pickSide_contribution _ _ _ _
  · have master : s.leveledMixer.master = s.mixer.master := by rw [leveledMixer_frame]
    rw [← master]
    rfl
  · obtain ⟨inForce, format⟩ := boundaryWork_port_formats s p
    refine ⟨inForce, format, fun he => ?_, boundaryWork_port_disabled⟩
    rw [← portPairs_eq _ p whole]
    exact boundaryWork_port_enabled he
  · rw [boundaryWork_mixer, leveledMixer_frame]
  · rw [boundaryWork_channel, leveledMixer_map]
  · rw [spc]
    rfl
  · rw [spc]
    rfl
  · rw [spc]
    exact if_neg (by rw [he]; exact Bool.false_ne_true)
  · rw [spc]
    exact (if_pos he).trans (keptAssembly_eq s.spc)
  · rw [boundaryWork_watch_on he hm hi]
    refine if_pos ?_
    rcases h with h | h
    · rw [h]
      simp
    · rw [(runEntered_iff _ _).mpr h]
      rfl
  · rw [boundaryWork_watch_on he hm hi]
    refine if_neg fun e => ?_
    rcases (Bool.or_eq_true _ _).mp e with e | e
    · obtain ⟨i, hi, hne⟩ := (runEntered_iff _ _).mp e
      exact hne (h i hi)
    · exact hw (eq_of_beq e)

/-! ## The start of the count (R3, R199) -/

/-- The state whose boundary 0 the start of the count takes (R3, R199). -/
def State.started (s : State) : State :=
  { s with
    running := true, count := 0, boundaryDue := true, link := { s.link with trackerFlags := s.link.trackerFlags ||| 0x01 } }

theorem exec_countStart {s : State} (h : s.running = false) : exec .countStart s = .next s.started.boundaryWork := by
  have boot : bitMask TrackerFlag.boot.bit = 0x01 := by decide
  refine congrArg Host.Outcome.next ((if_neg (by rw [h]; exact Bool.false_ne_true)).trans ?_)
  simp only [State.raiseTracker, boot]
  rfl

theorem started_boot (s : State) : s.started.boundaryWork.flag (.tracker .boot) = true := by
  have boot : (0x01 : Byte).getLsbD TrackerFlag.boot.bit = true := by decide
  rw [flag_tracker, (boundaryWork_part s.started).trackerFlags]
  show (s.link.trackerFlags ||| 0x01).getLsbD TrackerFlag.boot.bit = true
  rw [BitVec.getLsbD_or, boot, Bool.or_true]

/-- A set flag whose enable is on makes ATTN high (R192). -/
theorem attn_of_flag {s : State} {f : Flag} (hf : s.flag f = true) (he : s.flagEnabled f = true) : s.attn = true := by
  refine (Bool.or_eq_true _ _).mpr (.inr (bne_iff_ne.mpr ((bitVec_ne_zero_iff _).mpr ⟨f.place, ?_⟩)))
  rw [BitVec.getLsbD_and, Bool.and_eq_true]
  exact ⟨hf, he⟩

/-- Settles O6: boundary 0 of the started state. -/
theorem countStartSetsBoot : Obligations.CountStartSetsBoot := by
  intro s hs
  have boundary : exec .blockBoundary s.started = .next s.started.boundaryWork := exec_blockBoundary rfl rfl
  have part := boundaryWork_part s.started
  have spc := boundaryWork_spc s.started
  refine ⟨s.started.boundaryWork, exec_countStart hs, boundary, part.running, part.count, part.boundaryDue, fun p => ?_, ?_, ?_,
    started_boot s, fun he => ?_, part.tracker, part.strobe, part.store, part.lines, part.pending, part.inbound, part.outbound,
    part.transaction, part.enables⟩
  · refine ⟨(boundaryWork_port_formats s.started p).1, fun he => ?_, fun he => ?_⟩
    · obtain ⟨emission, -⟩ := boundaryWork_port_enabled (s := s.started) (p := p) he
      refine ⟨_, emission, ?_⟩
      rw [portPairs_eq _ p (laneBlocks_length _), List.length_map, List.length_range]
    · obtain ⟨emission, -, hang, -⟩ := boundaryWork_port_disabled (s := s.started) (p := p) he
      exact ⟨emission, hang⟩
  · rw [spc]
    rfl
  · rw [spc]
    rfl
  · refine attn_of_flag (started_boot s) ?_
    rw [State.flagEnabled, part.enables]
    exact he

end Sys2Proof.Machine

/-! The cues at a block boundary: each cue's work, what the four hand over and report in their order, the lanes' due actions, and the
advance of an EVERY cue (R104, R169 to R175). -/

namespace Sys2Proof.Machine

/-! ## Insertion in cue order (R103, R133) -/

theorem insertAction_eq (a : LaneAction) (l : List LaneAction) :
    insertAction a l = l.orderedInsert (fun b c => b.cue.num < c.cue.num) a := by
  induction l with
  | nil => rfl
  | cons c rest ih =>
    by_cases h : c.cue.num ≤ a.cue.num
    · rw [insertAction, if_pos h, ih, List.orderedInsert_cons, if_neg (Nat.not_lt.mpr h)]
    · rw [insertAction, if_neg h, List.orderedInsert_cons, if_pos (Nat.lt_of_not_le h)]

theorem orderedInsert_increasing {α : Type} (num : α → Nat) (a : α) {l : List α} (hl : (l.map num).Pairwise (· < ·))
    (ha : num a ∉ l.map num) : ((l.orderedInsert (fun b c => num b < num c) a).map num).Pairwise (· < ·) := by
  induction l with
  | nil => simp
  | cons c rest ih =>
    rw [List.map_cons, List.pairwise_cons] at hl
    obtain ⟨hc, hrest⟩ := hl
    rw [List.map_cons, List.mem_cons, not_or] at ha
    obtain ⟨hne, hnot⟩ := ha
    rw [List.orderedInsert_cons]
    split
    · rename_i hlt
      rw [List.map_cons, List.map_cons, List.pairwise_cons, List.pairwise_cons]
      refine ⟨fun n hn => ?_, hc, hrest⟩
      rcases List.mem_cons.mp hn with rfl | h
      · exact hlt
      · exact hlt.trans (hc n h)
    · rename_i hge
      rw [List.map_cons, List.pairwise_cons]
      refine ⟨fun n hn => ?_, ih hrest hnot⟩
      obtain ⟨b, hb, rfl⟩ := List.mem_map.mp hn
      rcases (List.mem_orderedInsert _).mp hb with rfl | h
      · omega
      · exact hc _ (List.mem_map_of_mem h)

/-- Records of different numbers inserted one after another into an increasing list. -/
theorem foldl_orderedInsert_increasing {α : Type} (num : α → Nat) (as : List α) {l : List α} (hl : (l.map num).Pairwise (· < ·))
    (hn : ((l ++ as).map num).Nodup) :
    ((as.foldl (fun m a => m.orderedInsert (fun b c => num b < num c) a) l).map num).Pairwise (· < ·) := by
  induction as generalizing l with
  | nil => exact hl
  | cons a rest ih =>
    have moved : ((l.orderedInsert (fun b c => num b < num c) a ++ rest).map num).Perm ((l ++ a :: rest).map num) :=
      (((List.perm_orderedInsert _ a l).append_right rest).trans List.perm_middle.symm).map num
    refine ih (orderedInsert_increasing num a hl ?_) (moved.nodup_iff.mpr hn)
    rw [List.map_append, List.map_cons] at hn
    exact fun h => (List.nodup_append.mp hn).2.2 _ h _ List.mem_cons_self rfl

theorem mem_foldl_orderedInsert {α : Type} (num : α → Nat) (as l : List α) (b : α) :
    b ∈ as.foldl (fun m a => m.orderedInsert (fun x y => num x < num y) a) l ↔ b ∈ l ∨ b ∈ as := by
  induction as generalizing l with
  | nil => simp
  | cons a rest ih =>
    rw [List.foldl_cons, ih, List.mem_orderedInsert, List.mem_cons]
    tauto

/-! ## What one cue hands over (R174) -/

/-- The record a cue's expiry puts on a lane's list, if it puts one there. -/
def CueAction.atLane (i : LaneId) (c : CueId) (k : BlockIndex) : CueAction → Option LaneAction
  | .none => Option.none
  | .go j => if j = i then some { cue := c, action := .go, expiry := k } else Option.none
  | .halt j flush => if j = i then some { cue := c, action := .halt flush, expiry := k } else Option.none
  | .gain _ _ _ _ => Option.none

/-- The record a cue's expiry puts on the mixer's list, if it puts one there. -/
def CueAction.atMixer (c : CueId) (k : BlockIndex) : CueAction → Option GainAction
  | .none => Option.none
  | .go _ => Option.none
  | .halt _ _ => Option.none
  | .gain i p g r => some { cue := c, lane := i, port := p, gain := g, ramp := max 1 r, expiry := k }

theorem atLane_some {i : LaneId} {c : CueId} {k : BlockIndex} {h : CueAction} {a : LaneAction} :
    h.atLane i c k = some a ↔ a.cue = c ∧ a.expiry = k ∧
      ((h = .go i ∧ a.action = .go) ∨ ∃ flush, h = .halt i flush ∧ a.action = .halt flush) := by
  obtain ⟨cue, action, expiry⟩ := a
  cases h with
  | none => simp [CueAction.atLane]
  | go j =>
    by_cases e : j = i
    · simp [CueAction.atLane, e]
      tauto
    · simp [CueAction.atLane, e]
  | halt j flush =>
    by_cases e : j = i
    · simp [CueAction.atLane, e]
      tauto
    · simp [CueAction.atLane, e]
  | gain j p g r => simp [CueAction.atLane]

theorem atMixer_some {c : CueId} {k : BlockIndex} {h : CueAction} {a : GainAction} :
    h.atMixer c k = some a ↔ a.cue = c ∧ a.expiry = k ∧ ∃ ramp, h = .gain a.lane a.port a.gain ramp ∧ a.ramp = max 1 ramp := by
  obtain ⟨cue, lane, port, gain, ramp, expiry⟩ := a
  cases h with
  | none => simp [CueAction.atMixer]
  | go j => simp [CueAction.atMixer]
  | halt j flush => simp [CueAction.atMixer]
  | gain j p g r =>
    simp only [CueAction.atMixer, Option.some.injEq, GainAction.mk.injEq, CueAction.gain.injEq]
    constructor
    · rintro ⟨rfl, rfl, rfl, rfl, rfl, rfl⟩
      exact ⟨rfl, rfl, r, ⟨rfl, rfl, rfl, rfl⟩, rfl⟩
    · rintro ⟨rfl, rfl, _, ⟨rfl, rfl, rfl, rfl⟩, rfl⟩
      exact ⟨rfl, rfl, rfl, rfl, rfl, rfl⟩

theorem handOver_actions (s : State) (c : CueId) (k : BlockIndex) (h : CueAction) (i : LaneId) :
    ((s.handOver c k h).lanes.get i).actions =
      (h.atLane i c k).elim (s.lanes.get i).actions fun a => insertAction a (s.lanes.get i).actions := by
  have lane : ∀ (j : LaneId) (a : LaneAction), ((s.handToLane j a).lanes.get i).actions =
      (if j = i then some a else none).elim (s.lanes.get i).actions fun a => insertAction a (s.lanes.get i).actions := by
    intro j a
    by_cases e : j = i
    · subst e
      simp [State.handToLane]
    · rw [if_neg e, State.handToLane, State.setLane_lanes, LaneMap.get_set_other _ _ (Ne.symm e)]
      rfl
  cases h with
  | none => rfl
  | go j => exact lane j _
  | halt j flush => exact lane j _
  | gain j p g r => rfl

theorem handOver_gains (s : State) (c : CueId) (k : BlockIndex) (h : CueAction) :
    (s.handOver c k h).mixer.actions = (h.atMixer c k).elim s.mixer.actions fun a => insertGain a s.mixer.actions := by
  cases h <;> rfl

theorem raiseCues_lanes (fs : List CueFlag) (s : State) : (s.raiseCues fs).lanes = s.lanes := by
  induction fs generalizing s with
  | nil => rfl
  | cons f rest ih => exact (ih _).trans rfl

theorem raiseCues_cues (fs : List CueFlag) (s : State) : (s.raiseCues fs).cues = s.cues := by
  induction fs generalizing s with
  | nil => rfl
  | cons f rest ih => exact (ih _).trans rfl

theorem handOver_cues (s : State) (c : CueId) (k : BlockIndex) (h : CueAction) : (s.handOver c k h).cues = s.cues := by
  cases h <;> rfl

theorem handOver_cueFlags (s : State) (c : CueId) (k : BlockIndex) (h : CueAction) :
    (s.handOver c k h).link.cueFlags = s.link.cueFlags := by
  cases h <;> rfl

theorem CueId.num_lt (c : CueId) : c.num < 4 := by cases c <;> decide

theorem CueId.num_injective {c d : CueId} (h : c.num = d.num) : c = d := by
  have all : ∀ x : Fin 4, ∀ c : CueId, c.num = x.val → c = [CueId.cue0, .cue1, .cue2, .cue3][x.val] := by
    intro x c
    cases c <;> revert x <;> decide
  exact (all ⟨d.num, d.num_lt⟩ c h).trans (all ⟨d.num, d.num_lt⟩ d rfl).symm

theorem CueFlag.bit_injective {f g : CueFlag} (h : f.bit = g.bit) : f = g := by
  cases f with
  | fired c =>
    cases g with
    | fired d =>
      have := c.num_lt
      have := d.num_lt
      simp only [CueFlag.bit] at h
      rw [CueId.num_injective (show c.num = d.num by omega)]
    | fail d =>
      have := c.num_lt
      simp only [CueFlag.bit] at h
      omega
  | fail c =>
    cases g with
    | fired d =>
      have := d.num_lt
      simp only [CueFlag.bit] at h
      omega
    | fail d =>
      have := c.num_lt
      have := d.num_lt
      simp only [CueFlag.bit] at h
      rw [CueId.num_injective (show c.num = d.num by omega)]

theorem bitMask_bit {n m : Nat} (hn : n < 8) (hm : m < 8) : (bitMask n).getLsbD m = true ↔ m = n := by
  have all : ∀ a b : Fin 8, (bitMask a.val).getLsbD b.val = true ↔ b.val = a.val := by decide
  exact all ⟨n, hn⟩ ⟨m, hm⟩

theorem raiseCues_flag (fs : List CueFlag) (s : State) (f : CueFlag) :
    (s.raiseCues fs).link.cueFlags.getLsbD f.bit = true ↔ s.link.cueFlags.getLsbD f.bit = true ∨ f ∈ fs := by
  induction fs generalizing s with
  | nil => simp [State.raiseCues]
  | cons g rest ih =>
    have raised : (s.raiseCue g).link.cueFlags.getLsbD f.bit = true ↔ s.link.cueFlags.getLsbD f.bit = true ∨ f = g := by
      rw [State.raiseCue_link, BitVec.getLsbD_or, Bool.or_eq_true, bitMask_bit g.bit_lt f.bit_lt]
      exact or_congr_right ⟨CueFlag.bit_injective, fun e => e ▸ rfl⟩
    exact (ih _).trans (by rw [raised, List.mem_cons, or_assoc])

/-! ## The four cues in their order (R169, R174) -/

/-- The work of a cue at boundary k, by the cues, lanes and tracker of a state. -/
def State.workOf (s : State) (k : BlockIndex) (o : List (CueId × Bool)) (c : CueId) : CueWork :=
  (s.cues.get c).boundaryWork c k (s.tracker.house? (boundaryTime k)) (gateCounts s.lanes (s.cues.get c).gate) (outcomeOf o c)

/-- What the cues of a list do, when each works as `w` says: each cue has done its work, the records are on the lists in the order of
the list, and the flags are set. -/
structure CuesDone (w : CueId → CueWork) (k : BlockIndex) (cs : List CueId) (s t : State) : Prop where
  done : ∀ c ∈ cs, t.cues.get c = (w c).cue
  others : ∀ c ∉ cs, t.cues.get c = s.cues.get c
  actions : ∀ i, (t.lanes.get i).actions =
    (cs.filterMap fun c => (w c).handed.atLane i c k).foldl (fun m a => insertAction a m) (s.lanes.get i).actions
  gains : t.mixer.actions = (cs.filterMap fun c => (w c).handed.atMixer c k).foldl (fun m a => insertGain a m) s.mixer.actions
  flags : ∀ f : CueFlag, t.link.cueFlags.getLsbD f.bit = true ↔
    s.link.cueFlags.getLsbD f.bit = true ∨ ∃ c ∈ cs, f ∈ (w c).flags

theorem workOf_congr {s t : State} (h : CueFrame s t) {c : CueId} (hc : t.cues.get c = s.cues.get c) (k : BlockIndex)
    (o : List (CueId × Bool)) : t.workOf k o c = s.workOf k o c := by
  have gate : gateCounts t.lanes (s.cues.get c).gate = gateCounts s.lanes (s.cues.get c).gate := by
    cases (s.cues.get c).gate with
    | none => rfl
    | some i =>
      simp only [gateCounts]
      rw [h.lanes i]
  rw [State.workOf, State.workOf, hc, h.part.tracker, gate]

theorem cuesDone_foldl (k : BlockIndex) (o : List (CueId × Bool)) (cs : List CueId) (s : State) (hn : cs.Nodup) :
    CuesDone (s.workOf k o) k cs s (cs.foldl (State.cueWork k o) s) := by
  induction cs generalizing s with
  | nil => exact ⟨by simp, by simp, fun _ => rfl, rfl, by simp⟩
  | cons c rest ih =>
    obtain ⟨hc, hrest⟩ := List.nodup_cons.mp hn
    obtain ⟨t, ht⟩ : ∃ t, t = s.cueWork k o c := ⟨_, rfl⟩
    have eq : t = ((s.setCue c (s.workOf k o c).cue).handOver c k (s.workOf k o c).handed).raiseCues (s.workOf k o c).flags := ht
    have frame : CueFrame s t := ht ▸ cueWork_frame k o s c
    have cues : t.cues = s.cues.set c (s.workOf k o c).cue := by
      rw [eq, raiseCues_cues, handOver_cues]
      rfl
    have other : ∀ d, d ≠ c → t.cues.get d = s.cues.get d := fun d hd => by rw [cues, CueMap.get_set_other _ _ hd]
    have same : ∀ d ∈ rest, t.workOf k o d = s.workOf k o d := fun d hd =>
      workOf_congr frame (other d fun e => hc (e ▸ hd)) k o
    obtain ⟨done, others, actions, gains, flags⟩ := ih t hrest
    rw [List.foldl_cons, ← ht]
    refine ⟨fun d hd => ?_, fun d hd => ?_, fun i => ?_, ?_, fun f => ?_⟩
    · rcases List.mem_cons.mp hd with rfl | h
      · rw [others d hc, cues, CueMap.get_set_same]
      · rw [done d h, same d h]
    · rw [List.mem_cons, not_or] at hd
      rw [others d hd.2, other d hd.1]
    · have records : (rest.filterMap fun d => (t.workOf k o d).handed.atLane i d k) =
          rest.filterMap fun d => (s.workOf k o d).handed.atLane i d k := List.filterMap_congr fun d hd => by rw [same d hd]
      rw [actions i, records, eq, raiseCues_lanes, handOver_actions, State.setCue_lanes, List.filterMap_cons]
      cases (s.workOf k o c).handed.atLane i c k <;> rfl
    · have records : (rest.filterMap fun d => (t.workOf k o d).handed.atMixer d k) =
          rest.filterMap fun d => (s.workOf k o d).handed.atMixer d k := List.filterMap_congr fun d hd => by rw [same d hd]
      rw [gains, records, eq, raiseCues_mixer, handOver_gains, State.setCue_mixer, List.filterMap_cons]
      cases (s.workOf k o c).handed.atMixer c k <;> rfl
    · have raised : t.link.cueFlags.getLsbD f.bit = true ↔ s.link.cueFlags.getLsbD f.bit = true ∨ f ∈ (s.workOf k o c).flags := by
        rw [eq, raiseCues_flag, handOver_cueFlags]
        rfl
      rw [flags f, raised, or_assoc]
      refine or_congr_right ?_
      rw [List.exists_mem_cons_iff]
      refine or_congr_right (exists_congr fun d => and_congr_right fun hd => ?_)
      rw [same d hd]

/-! ## One cue (R169 to R175) -/

theorem recordOutcome_eq (q : Cue) (o : Option Bool) :
    q.recordOutcome o = { q with outcome := match o with
      | none => q.outcome
      | some true => .succeeded
      | some false => .failed } := by
  rcases o with _ | _ | _ <;> rfl

/-- A cue before its expiry test: a report due here is made, and a pulse ends (R169). -/
theorem clearReport_endPulse_eq (q : Cue) (k : BlockIndex) :
    (q.clearReport k).endPulse = { q with
      reportDue := if q.reportDue = some k then none else q.reportDue
      level := match q.line with
        | .pulse => false
        | .toggle => q.level } := by
  unfold Cue.clearReport
  obtain ⟨mode, target, interval, reload, gate, action, report, line, state, count, level, expiries, skipped, last, outcome, due⟩ := q
  by_cases h : due = some k <;> cases line <;> simp [Cue.endPulse, h]

/-- The expiry test (R170 to R172). -/
theorem test_expires_iff (house : Option Time) (counted : Bool) (q : Cue) :
    (q.test house counted).2 = true ↔
      (q.mode = .blocks ∧ counted = true ∧ q.count = 0) ∨
        (q.mode ≠ .blocks ∧ ∃ h, house = some h ∧ 0 ≤ (h - q.target).toInt) := by
  have timed : ∀ (h : Time) (a b : Cue), (if q.reached h = true then (a, true) else (b, false)).2 = true ↔ 0 ≤ (h - q.target).toInt := by
    intro h a b
    by_cases e : q.reached h = true
    · rw [if_pos e]
      exact ⟨fun _ => of_decide_eq_true e, fun _ => rfl⟩
    · rw [if_neg e]
      exact ⟨fun f => absurd f Bool.false_ne_true, fun f => absurd (decide_eq_true f) e⟩
  unfold Cue.test
  split
  · rename_i h hm
    rw [timed]
    simp [hm]
  · rename_i h hm
    rw [timed]
    simp [hm]
  · simp [*]
  · simp [*]
  · rename_i hm
    cases counted <;> by_cases e : q.count = 0 <;> simp [hm, e]

/-- What the test makes of a cue: an AT cue that expires is EXPIRED, an EVERY cue's target and skipped count move where it expires, and a
BLOCKS cue counts (R170 to R172). -/
theorem test_cue (house : Option Time) (counted : Bool) (q : Cue) :
    ∃ target skipped, (q.test house counted).1 = { q with
      target := if q.mode = .every ∧ (q.test house counted).2 = true then target else q.target
      skipped := if q.mode = .every ∧ (q.test house counted).2 = true then skipped else q.skipped
      state := if q.mode = .at ∧ (q.test house counted).2 = true then .expired else q.state
      count := if q.mode = .blocks ∧ counted = true then (if q.count = 0 then q.reload else q.count - 1) else q.count } := by
  refine ⟨(q.test house counted).1.target, (q.test house counted).1.skipped, ?_⟩
  obtain ⟨mode, target, interval, reload, gate, action, report, line, state, count, level, expiries, skipped, last, outcome, due⟩ := q
  match mode with
  | .at =>
    cases house with
    | none => simp [Cue.test]
    | some h =>
      simp only [Cue.test]
      split <;> simp
  | .every =>
    cases house with
    | none => simp [Cue.test]
    | some h =>
      simp only [Cue.test]
      split <;> simp [Cue.advance]
  | .blocks =>
    cases counted with
    | false => simp [Cue.test]
    | true => by_cases e : count = 0 <;> simp [Cue.test, e]

/-- The test does not look at the report due or the line's level. -/
theorem test_marks (house : Option Time) (counted : Bool) (q : Cue) (due : Option BlockIndex) (level : Bool) :
    Cue.test house counted { q with reportDue := due, level := level } =
      ({ (q.test house counted).1 with reportDue := due, level := level }, (q.test house counted).2) := by
  unfold Cue.test
  dsimp only
  split
  · have same : Cue.reached { q with reportDue := due, level := level } = q.reached := rfl
    rw [same]
    split <;> rfl
  · have same : Cue.reached { q with reportDue := due, level := level } = q.reached := rfl
    rw [same]
    split <;> rfl
  · rfl
  · rfl
  · split
    · split <;> rfl
    · rfl

theorem reportsNow_iff (q : Cue) : q.reportsNow = true ↔ q.report = .onExpiry ∨ q.action = .none := by
  simp [Cue.reportsNow]

theorem reportsLater_iff (q : Cue) : q.report = .afterAction ∧ q.action ≠ .none ↔ ¬ q.reportsNow = true := by
  rw [reportsNow_iff, not_or]
  refine and_congr_left fun _ => ?_
  cases q.report <;> simp

/-- A cue's work at boundary k (R169 to R175): `q` has the outcome that reached it recorded, and `expires` is its verdict. -/
theorem cueBoundary_eq (c : CueId) (k : BlockIndex) (house : Option Time) (counted : Bool) (o : Option Bool) {p q : Cue}
    (hq : q = p.recordOutcome o) {expires : Bool}
    (he : expires = true ↔ q.state = .running ∧ (q.test house counted).2 = true) :
    p.boundaryWork c k house counted o =
      { cue := { q with
          target := if q.mode = .every ∧ expires = true then (q.test house counted).1.target else q.target
          skipped := if q.mode = .every ∧ expires = true then (q.test house counted).1.skipped else q.skipped
          state := if q.mode = .at ∧ expires = true then .expired else q.state
          count := if q.state = .running ∧ q.mode = .blocks ∧ counted = true then
            (if q.count = 0 then q.reload else q.count - 1) else q.count
          level := match q.line with
            | .pulse => expires
            | .toggle => if expires then !q.level else q.level
          expiries := if expires then min (q.expiries + 1) 65535 else q.expiries
          lastExpiry := if expires then some k else q.lastExpiry
          outcome := if expires = true ∧ q.action ≠ .none then .awaited else q.outcome
          reportDue := if expires = true ∧ q.report = .afterAction ∧ q.action ≠ .none then some (k + 1)
            else if q.reportDue = some k then none else q.reportDue }
        flags := p.outcomeFlags c k o ++ (if expires = true ∧ (q.report = .onExpiry ∨ q.action = .none) then [.fired c] else [])
        handed := if expires = true then q.action else .none } := by
  obtain ⟨target, skipped, tested⟩ := test_cue house counted q
  unfold Cue.boundaryWork
  dsimp only
  rw [← hq, clearReport_endPulse_eq, test_marks]
  dsimp only
  generalize (q.test house counted).2 = r2 at he tested ⊢
  generalize (q.test house counted).1 = r1 at tested ⊢
  subst tested
  simp only [reportsLater_iff, ← reportsNow_iff]
  by_cases hr : q.state = .running
  · have same : expires = r2 := by
      rw [Bool.eq_iff_iff, he]
      exact and_iff_right hr
    subst same
    rw [if_pos hr]
    cases expires with
    | false => simp [hr]
    | true =>
      have reports : ∀ (a : Time) (b : Nat) (c : CueState) (d : Nat) (e : Option BlockIndex) (f : Bool),
          Cue.reportsNow { q with target := a, skipped := b, state := c, count := d, reportDue := e, level := f } = q.reportsNow :=
        fun _ _ _ _ _ _ => rfl
      simp [hr, Cue.expire, reports]
      refine ⟨fun h e => absurd e h, ?_, rfl, fun h e => absurd e h, ?_⟩
      · simp only [Cue.lineEffect]
        cases q.line <;> rfl
      · cases q.reportsNow <;> rfl
  · have same : expires = false := Bool.eq_false_iff.mpr fun e => hr (he.mp e).1
    subst same
    simp [hr]

/-- An outcome that reaches a cue is recorded and reported before the cue's own work (R175). -/
theorem cueBoundary_outcome (c : CueId) (k : BlockIndex) (house : Option Time) (counted ok : Bool) (q : Cue) {w v : CueWork}
    (hw : w = q.boundaryWork c k house counted (some ok))
    (hv : v = Cue.boundaryWork c k house counted none { q with outcome := if ok then .succeeded else .failed }) :
    w.cue = v.cue ∧ w.handed = v.handed ∧
      w.flags = (if ok then (if q.reportDue = some k then [CueFlag.fired c] else []) else [.fail c]) ++ v.flags := by
  have recorded : q.recordOutcome (some ok) =
      Cue.recordOutcome { q with outcome := if ok then .succeeded else .failed } none := by cases ok <;> rfl
  obtain ⟨expires, he⟩ : ∃ b : Bool, b = true ↔ (q.recordOutcome (some ok)).state = .running ∧
      ((q.recordOutcome (some ok)).test house counted).2 = true :=
    ⟨decide (_ ∧ _), decide_eq_true_iff⟩
  rw [hw, hv, cueBoundary_eq c k house counted (some ok) rfl he, cueBoundary_eq c k house counted none recorded he]
  refine ⟨rfl, rfl, ?_⟩
  cases ok <;> rfl

/-- The advance of an EVERY cue that expires goes past house time by no more than an interval (R171). -/
theorem advance_later {q : Cue} {h : Time} (hlow : 32768 ≤ q.interval) (hhigh : q.interval ≤ 2 ^ 40) (hr : 0 ≤ (h - q.target).toInt) :
    1 ≤ q.advances h ∧
      q.advance h = { q with
        target := q.target + BitVec.ofNat 48 (q.advances h * q.interval)
        skipped := min (q.skipped + (q.advances h - 1)) 65535 } ∧
      0 < (q.target + BitVec.ofNat 48 (q.advances h * q.interval) - h).toInt ∧
      (q.target + BitVec.ofNat 48 (q.advances h * q.interval) - h).toInt ≤ q.interval ∧
      ((q.advances h : Int) - 1) * q.interval ≤ (h - q.target).toInt := by
  obtain ⟨d, hd⟩ : ∃ d : Nat, (h - q.target).toInt = d := Int.eq_ofNat_of_zero_le hr
  have advances : q.advances h = d / q.interval + 1 := by
    rw [Cue.advances, sdiff, hd]
    rfl
  have hdiv := Nat.div_add_mod d q.interval
  have hmod := Nat.mod_lt d (show 0 < q.interval by omega)
  have total : q.advances h * q.interval = d - d % q.interval + q.interval := by
    rw [advances, Nat.add_mul, Nat.one_mul, Nat.mul_comm (d / q.interval)]
    omega
  have bound : d < 2 ^ 47 := by
    have := BitVec.toInt_lt (x := h - q.target)
    omega
  have passed : (q.target + BitVec.ofNat 48 (q.advances h * q.interval) - h).toInt = (q.interval : Int) - (d % q.interval : Nat) := by
    have split : q.target + BitVec.ofNat 48 (q.advances h * q.interval) - h =
        BitVec.ofNat 48 (q.advances h * q.interval) - (h - q.target) := by ring
    have diff : q.target + BitVec.ofNat 48 (q.advances h * q.interval) - h =
        BitVec.ofInt 48 ((q.interval : Int) - (d % q.interval : Nat)) := by
      rw [split, ← BitVec.ofInt_toInt (x := h - q.target), hd, ← BitVec.ofInt_natCast, BitVec.sub_eq_add_neg,
        ← BitVec.ofInt_neg, ← BitVec.ofInt_add]
      congr 1
      omega
    rw [diff, BitVec.toInt_ofInt, Int.bmod_eq_of_le] <;> omega
  have whole : (d / q.interval) * q.interval ≤ d := Nat.div_mul_le_self d q.interval
  refine ⟨advances ▸ Nat.le_add_left 1 _, ?_, by omega, by omega, ?_⟩
  · rw [Cue.advance, addTicks, BitVec.ofInt_natCast]
    rfl
  · rw [advances, hd]
    push_cast
    rw [add_sub_cancel_right]
    exact_mod_cast whole

end Sys2Proof.Machine

/-! The cue actions due at a lane (R103, R104): each is the request it names, and the lane's work at the boundary follows from the lane it
leaves. -/

namespace Sys2Proof.Machine

/-! ## What applying actions keeps -/

theorem isPlay_iff (l : Lane) : l.isPlay = true ↔ l.state ≠ .off ∧ l.config.direction = .play := by
  simp [Lane.isPlay, Lane.enabled]

theorem go_actions {l m : Lane} {now : Time} (h : l.go now = .ok m) : m.actions = l.actions := by
  unfold Lane.go at h
  split at h
  · cases h
  · split at h
    · split at h
      · cases h
        rfl
      · cases h
    · split at h
      · split at h
        · cases h
        · cases h
          rfl
      · cases h

theorem releaseWhere_actions (l : Lane) (p : FrameRecord → Bool) : (l.releaseWhere p).actions = l.actions := by
  rw [(releaseWhere_released l p).frame]

theorem discardFilling_actions (l : Lane) : l.discardFilling.actions = l.actions := by rw [discardFilling_frame]

theorem haltPlay_actions (l : Lane) (flush : Bool) : (l.haltPlay flush).actions = l.actions := by
  unfold Lane.haltPlay
  split
  · split
    · exact releaseWhere_actions l _
    · rfl
  · split <;> rfl

theorem haltCapture_actions (l : Lane) (flush : Bool) : (l.haltCapture flush).actions = l.actions := by
  have stopped : (if l.state = .running then { l.discardFilling with state := .stopped, entryTime := none } else l).actions =
      l.actions := by
    split
    · exact discardFilling_actions l
    · rfl
  unfold Lane.haltCapture
  dsimp only
  split
  · exact (releaseWhere_actions _ _).trans stopped
  · exact stopped

theorem halting_play {l : Lane} (on : l.state ≠ .off) (hd : l.config.direction = .play) (flush : Bool) :
    l.halting flush = .ok (l.haltPlay flush) := by
  simp only [Lane.halting, if_neg on, hd]

theorem halting_capture {l : Lane} (on : l.state ≠ .off) (hd : l.config.direction = .capture) (flush : Bool) :
    l.halting flush = .ok (l.haltCapture flush) := by
  simp only [Lane.halting, if_neg on, hd]

theorem halting_off {l : Lane} (off : l.state = .off) (flush : Bool) : l.halting flush = .error .eState := if_pos off

theorem halting_actions {l m : Lane} {flush : Bool} (h : l.halting flush = .ok m) : m.actions = l.actions := by
  by_cases off : l.state = .off
  · rw [halting_off off] at h
    cases h
  · cases hd : l.config.direction with
    | play =>
      rw [halting_play off hd] at h
      cases h
      exact haltPlay_actions l flush
    | capture =>
      rw [halting_capture off hd] at h
      cases h
      exact haltCapture_actions l flush

/-! ## One action (R104) -/

theorem apply_go_ok {a : LaneAction} {l m : Lane} {now : Time} (ha : a.action = .go) (h : l.go now = .ok m) :
    a.apply now l = (m, true) := by simp only [LaneAction.apply, ha, h]

theorem apply_go_error {a : LaneAction} {l : Lane} {now : Time} {code : ResultCode} (ha : a.action = .go)
    (h : l.go now = .error code) : a.apply now l = (l, false) := by simp only [LaneAction.apply, ha, h]

theorem apply_halt_ok {a : LaneAction} {l m : Lane} {flush : Bool} (ha : a.action = .halt flush) (h : l.halting flush = .ok m)
    (now : Time) : a.apply now l = (m, true) := by simp only [LaneAction.apply, ha, h]

theorem apply_halt_error {a : LaneAction} {l : Lane} {flush : Bool} {code : ResultCode} (ha : a.action = .halt flush)
    (h : l.halting flush = .error code) (now : Time) : a.apply now l = (l, false) := by simp only [LaneAction.apply, ha, h]

theorem apply_actions (a : LaneAction) (now : Time) (l : Lane) : (a.apply now l).1.actions = l.actions := by
  cases ha : a.action with
  | go =>
    cases h : l.go now with
    | ok m =>
      rw [apply_go_ok ha h]
      exact go_actions h
    | error code => rw [apply_go_error ha h]
  | halt flush =>
    cases h : l.halting flush with
    | ok m =>
      rw [apply_halt_ok ha h]
      exact halting_actions h
    | error code => rw [apply_halt_error ha h]

theorem applyActions_actions (now : Time) (as : List LaneAction) (l : Lane) : (applyActions now as l).1.actions = l.actions := by
  induction as generalizing l with
  | nil => rfl
  | cons a rest ih => exact (ih _).trans (apply_actions a now l)

/-- A lane after its work at a boundary holds the actions that were not due (R104). -/
theorem boundaryWork_actions (env : BoundaryEnv) (l : Lane) :
    (l.boundaryWork env).lane.actions = l.actions.filter fun a => a.expiry + 1 != env.block := by
  have acted : (l.cueStep env).1.actions = l.actions.filter fun a => a.expiry + 1 != env.block := applyActions_actions ..
  unfold Lane.boundaryWork
  dsimp only
  split
  · refine Eq.trans (Played.actions ?_) acted
    refine (Played.trans ?_ (workState_played env _)).trans (watermark_played _ l.buffered)
    split
    · exact commit_played _
    · exact Played.refl _
  · exact acted

theorem haltPlay_stopped {l : Lane} (h : l.state = .stopped) (flush : Bool) :
    l.haltPlay flush = if flush = true then l.releaseWhere (fun _ => true) else l := if_pos h

theorem haltPlay_stopping {l : Lane} {h : Halt} (hst : l.state = .stopping) (hh : l.halt = some h) (flush : Bool) :
    l.haltPlay flush = { l with halt := some { fromCursor := h.fromCursor, flush := h.flush || flush } } := by
  rw [Lane.haltPlay, hst, if_neg (by decide), if_pos rfl, hh]
  rfl

theorem haltPlay_active {l : Lane} (h1 : l.state ≠ .stopped) (h2 : l.state ≠ .stopping) (flush : Bool) :
    l.haltPlay flush =
      { l with state := .stopping, halt := some { fromCursor := decide (l.state = .playing), flush := flush } } := by
  rw [Lane.haltPlay, if_neg h1, if_neg h2, beq_eq_decide]

theorem haltCapture_running {l : Lane} (h : l.state = .running) (flush : Bool) :
    l.haltCapture flush = if flush = true then
        ({ l.discardFilling with state := .stopped, entryTime := none } : Lane).releaseWhere (fun _ => true)
      else { l.discardFilling with state := .stopped, entryTime := none } := by
  simp only [Lane.haltCapture, if_pos h]
  rfl

theorem haltCapture_resting {l : Lane} (h : l.state ≠ .running) (flush : Bool) :
    l.haltCapture flush = if flush = true then l.releaseWhere (fun _ => true) else l := by
  simp only [Lane.haltCapture, if_neg h]
  rfl

/-- A halt of a PLAY lane changes its buffered count by a flush in STOPPED alone (R58, R86). -/
theorem haltPlay_buffered (l : Lane) (flush : Bool) (h : l.state ≠ .stopped ∨ flush = false) :
    (l.haltPlay flush).buffered = l.buffered := by
  unfold Lane.haltPlay
  split
  · rename_i stopped
    rw [h.resolve_left fun e => e stopped]
    rfl
  · split <;> rfl

theorem go_buffered {l m : Lane} {now : Time} (h : l.go now = .ok m) : m.buffered = l.buffered := by
  unfold Lane.go at h
  split at h
  · cases h
  · split at h
    · split at h
      · cases h
        rfl
      · cases h
    · split at h
      · split at h
        · cases h
        · cases h
          rfl
      · cases h

/-- An action changes the buffered count of a PLAY lane by a flush in STOPPED alone (R58, R104). -/
theorem apply_buffered {a : LaneAction} {l : Lane} (now : Time) (hd : l.config.direction = .play)
    (h : l.state ≠ .stopped ∨ a.action ≠ .halt true) : (a.apply now l).1.buffered = l.buffered := by
  cases ha : a.action with
  | go =>
    cases hg : l.go now with
    | ok m =>
      rw [apply_go_ok ha hg]
      exact go_buffered hg
    | error code => rw [apply_go_error ha hg]
  | halt flush =>
    by_cases off : l.state = .off
    · rw [apply_halt_error ha (halting_off off flush)]
    · rw [apply_halt_ok ha (halting_play off hd flush)]
      refine haltPlay_buffered l flush (h.imp_right fun e => ?_)
      rw [ha] at e
      exact Bool.eq_false_iff.mpr fun ht => e (by rw [ht])

theorem due_none_left {env : BoundaryEnv} {a : LaneAction} (hx : a.expiry + 1 = env.block) :
    ([a] : List LaneAction).filter (fun b => b.expiry + 1 != env.block) = [] :=
  List.filter_cons_of_neg (by rw [hx, bne_self_eq_false]; exact Bool.false_ne_true)

theorem cueStep_single {env : BoundaryEnv} {l o : Lane} {a : LaneAction} (ha : l.actions = [a]) (hx : a.expiry + 1 = env.block)
    (ho : o = { l with actions := [] }) : l.cueStep env = ((a.apply env.now o).1, [(a.cue, (a.apply env.now o).2)]) := by
  have due : ([a] : List LaneAction).filter (fun b => b.expiry + 1 == env.block) = [a] := List.filter_cons_of_pos (beq_iff_eq.mpr hx)
  unfold Lane.cueStep
  dsimp only
  rw [ha, due, due_none_left hx, ← ho]
  rfl

/-- The work of a PLAY lane after its cue step: the commit test, its state's work, and the watermark check (R60, R66, R87). -/
theorem boundaryWork_played (env : BoundaryEnv) {l m : Lane} {outcomes : List (CueId × Bool)} (h : l.cueStep env = (m, outcomes))
    (hm : m.isPlay = true) :
    l.boundaryWork env =
      { lane := ((if m.switchDue (env.target m) then m.commit else m).workState env).1.watermark l.buffered
        block := ((if m.switchDue (env.target m) then m.commit else m).workState env).2
        outcomes := outcomes } := by
  unfold Lane.boundaryWork
  rw [h]
  exact if_pos hm

/-- A flush in STOPPED: the lane does nothing else at the boundary, and LOW is set where the count fell below the low mark (R60, R86). -/
theorem boundaryWork_flushed (env : BoundaryEnv) {l m : Lane} {outcomes : List (CueId × Bool)} (h : l.cueStep env = (m, outcomes))
    (hd : m.config.direction = .play) (hst : m.state = .stopped) (hq : m.queue = []) :
    ∃ w : Lane, w.flags = m.flags ∧ (m.actions = [] → (m.boundaryWork env).lane = w) ∧
      (l.boundaryWork env).lane =
        { w with flags := m.flags ||| (if m.config.low ≤ l.buffered ∧ 0 < m.config.low then 0x10 else 0) } := by
  have hp : m.isPlay = true := (isPlay_iff m).mpr ⟨by rw [hst]; decide, hd⟩
  obtain ⟨w, hw⟩ : ∃ w, w = if m.switchDue (env.target m) = true then m.commit else m := ⟨_, rfl⟩
  have frame : w.state = m.state ∧ w.flags = m.flags ∧ w.config = m.config ∧ w.queue = [] := by
    rw [hw]
    split
    · have empty : m.commit.queue = [] :=
        List.eq_nil_of_length_eq_zero (Nat.le_zero.mp (by simpa [hq] using (commit_played m).queue))
      rw [commit_frame] at empty ⊢
      exact ⟨rfl, rfl, rfl, empty⟩
    · exact ⟨rfl, rfl, rfl, hq⟩
  obtain ⟨state, flags, config, queue⟩ := frame
  have rests : (w.workState env).1 = w := by rw [Lane.workState, state, hst]
  have playDirection : w.config.direction = .play := by rw [config, hd]
  refine ⟨w, flags, fun ha => ?_, ?_⟩
  · rw [boundaryWork_played env (cueStep_none env m ha) hp, ← hw, rests]
    exact watermark_same _ _ (by simp [Lane.buffered, hq, queue])
  · rw [boundaryWork_played env h hp, ← hw, rests, watermark_emptied playDirection queue, flags, config]

/-- A lane with one action due that leaves it as `m` (R104): its work and its block are those of `m`, its watermark check from the count
before. -/
theorem boundaryWork_due (env : BoundaryEnv) {l o m : Lane} {a : LaneAction} {ok : Bool} (ha : l.actions = [a])
    (hx : a.expiry + 1 = env.block) (ho : o = { l with actions := [] }) (happ : a.apply env.now o = (m, ok)) :
    (l.boundaryWork env).outcomes = [(a.cue, ok)] ∧ (l.boundaryWork env).block = (m.boundaryWork env).block ∧
    (l.boundaryWork env).lane = { (m.boundaryWork env).lane with
      flags := if l.config.direction = .play ∧ l.state = .stopped ∧ a.action = .halt true ∧ l.config.low ≤ l.buffered ∧
          0 < l.config.low then l.flags ||| 0x10 else (m.boundaryWork env).lane.flags } ∧
    (l.boundaryWork env).lane.actions = [] := by
  have step : l.cueStep env = (m, [(a.cue, ok)]) := by rw [cueStep_single ha hx ho, happ]
  have fst : m = (a.apply env.now o).1 := by rw [happ]
  have none_left : m.actions = [] := by rw [fst, apply_actions, ho]
  obtain ⟨outcomes, block, other, plays⟩ := boundaryWork_cueStep env l m _ step none_left
  have left : (l.boundaryWork env).lane.actions = [] := by
    rw [boundaryWork_actions, ha, due_none_left hx]
  refine ⟨outcomes, block, ?_, left⟩
  by_cases flushed : l.config.direction = .play ∧ l.state = .stopped ∧ a.action = .halt true
  · obtain ⟨hd, hst, hhalt⟩ := flushed
    have stopped : o.state = .stopped := by rw [ho, ← hst]
    have direction : o.config.direction = .play := by rw [ho, ← hd]
    have released : m = o.releaseWhere fun _ => true := by
      rw [fst, apply_halt_ok hhalt (halting_play (by rw [stopped]; decide) direction true), haltPlay_stopped stopped, if_pos rfl]
    have frame := (releaseWhere_released o fun _ => true).frame
    rw [← released] at frame
    have empty : m.queue = [] := by rw [released]; exact flushQueue_queue o
    obtain ⟨w, flags, resting, lane⟩ := boundaryWork_flushed env step (by rw [frame, direction]) (by rw [frame, stopped]) empty
    have mflags : m.flags = l.flags := by rw [frame, ho]
    have mconfig : m.config = l.config := by rw [frame, ho]
    rw [lane, resting none_left, flags, mflags, mconfig]
    by_cases low : l.config.low ≤ l.buffered ∧ 0 < l.config.low
    · rw [if_pos low, if_pos ⟨hd, hst, hhalt, low⟩]
    · rw [if_neg low, if_neg fun e => low e.2.2.2]
      simp
  · rw [if_neg fun e => flushed ⟨e.1, e.2.1, e.2.2.1⟩]
    cases hp : m.isPlay with
    | false =>
      obtain ⟨h1, h2⟩ := other hp
      rw [h1, h2]
    | true =>
      obtain ⟨w, h1, h2⟩ := plays hp
      have direction : l.config.direction = .play := by
        have := ((isPlay_iff m).mp hp).2
        have same : m.config = l.config := by
          rw [fst, (apply_worked a env.now o).config, ho]
        rwa [same] at this
      have count : m.buffered = l.buffered := by
        have resting : o.state ≠ .stopped ∨ a.action ≠ .halt true := by
          rw [ho]
          by_contra hno
          push Not at hno
          exact flushed ⟨direction, hno.1, hno.2⟩
        have same := apply_buffered (a := a) env.now (l := o) (by rw [ho, ← direction]) resting
        rw [fst, same, ho]
        rfl
      rw [h1, h2, count]

/-- The request an action names, taken or refused, by the lane's direction and state (R85, R86, R104, R157, R158). -/
theorem apply_of_case {l o m : Lane} {a : LaneAction} {ok fits : Bool} (now : Time) (ho : o = { l with actions := [] })
    (hfits : fits = decide (l.config.frameSize * l.config.channels ≤ l.config.regionSize))
    (h : (a.action = .go ∧ l.config.direction = .play ∧ (l.state = .stopped ∨ l.state = .drained) ∧ ok = true ∧
        m = { o with state := .armed, aim := .frame }) ∨
      (a.action = .go ∧ l.config.direction = .play ∧ l.state ≠ .stopped ∧ l.state ≠ .drained ∧ ok = false ∧ m = o) ∨
      (a.action = .go ∧ l.config.direction = .capture ∧ l.state = .stopped ∧ fits = true ∧ ok = true ∧
        m = { o with state := .running, runNumber := l.runNumber + 1, entryTime := some now, discPending := true }) ∨
      (a.action = .go ∧ l.config.direction = .capture ∧ (l.state ≠ .stopped ∨ fits = false) ∧ ok = false ∧ m = o) ∨
      (l.state = .off ∧ (∃ flush, a.action = .halt flush) ∧ ok = false ∧ m = o) ∨
      (∃ flush, a.action = .halt flush ∧ ok = true ∧
        ((l.config.direction = .play ∧ l.state ≠ .off ∧ l.state ≠ .stopped ∧ l.state ≠ .stopping ∧
            m = { o with
              state := .stopping, halt := some { fromCursor := decide (l.state = .playing), flush := flush } }) ∨
          (l.config.direction = .play ∧ l.state = .stopping ∧ ∃ h, l.halt = some h ∧
            m = { o with halt := some { fromCursor := h.fromCursor, flush := h.flush || flush } }) ∨
          (l.state = .stopped ∧ m = (if flush = true then o.releaseWhere (fun _ => true) else o)) ∨
          (l.config.direction = .capture ∧ l.state = .running ∧
            ∃ n : Lane, n = { o.discardFilling with state := .stopped, entryTime := none } ∧
              m = (if flush = true then n.releaseWhere (fun _ => true) else n))))) :
    a.apply now o = (m, ok) := by
  have config : o.config = l.config := by rw [ho]
  have state : o.state = l.state := by rw [ho]
  have halt : o.halt = l.halt := by rw [ho]
  have run : o.runNumber = l.runNumber := by rw [ho]
  rw [← config, ← state, ← halt, ← run] at h
  rw [← config] at hfits
  rcases h with ⟨ha, hd, hst, rfl, rfl⟩ | ⟨ha, hd, h1, h2, rfl, rfl⟩ | ⟨ha, hd, hst, hfit, rfl, rfl⟩ | ⟨ha, hd, hno, rfl, rfl⟩ |
    ⟨off, ⟨flush, ha⟩, rfl, rfl⟩ | ⟨flush, ha, rfl, h⟩
  · exact apply_go_ok ha (Lane.go_play hd hst now)
  · exact apply_go_error ha (Lane.go_refused h1 (fun _ => h2) now)
  · refine apply_go_ok ha ((Lane.go_capture hd hst now).trans (if_neg ?_))
    rw [hfits, decide_eq_true_iff] at hfit
    exact Nat.not_lt.mpr hfit
  · by_cases hst : m.state = .stopped
    · refine apply_go_error ha ((Lane.go_capture hd hst now).trans (if_pos ?_))
      have := hno.resolve_left fun e => e hst
      rw [hfits, decide_eq_false_iff_not] at this
      exact Nat.lt_of_not_le this
    · exact apply_go_error ha (Lane.go_refused hst (fun hp => by rw [hd] at hp; cases hp) now)
  · exact apply_halt_error ha (halting_off off flush) now
  · rcases h with ⟨hd, on, h1, h2, rfl⟩ | ⟨hd, hst, h, hh, rfl⟩ | ⟨hst, rfl⟩ | ⟨hd, hst, n, rfl, rfl⟩
    · exact apply_halt_ok ha ((halting_play on hd flush).trans (congrArg _ (haltPlay_active h1 h2 flush))) now
    · exact apply_halt_ok ha ((halting_play (by rw [hst]; decide) hd flush).trans (congrArg _ (haltPlay_stopping hst hh flush))) now
    · cases hd : o.config.direction with
      | play => exact apply_halt_ok ha ((halting_play (by rw [hst]; decide) hd flush).trans (congrArg _ (haltPlay_stopped hst flush))) now
      | capture =>
        exact apply_halt_ok ha ((halting_capture (by rw [hst]; decide) hd flush).trans
          (congrArg _ (haltCapture_resting (by rw [hst]; decide) flush))) now
    · exact apply_halt_ok ha ((halting_capture (by rw [hst]; decide) hd flush).trans (congrArg _ (haltCapture_running hst flush))) now

/-! ## The cues at a boundary (R169 to R175) -/

theorem clipWork_cues (s : State) (p : OutPort) (b : LaneMap Block) :
    (s.clipWork p b).cues = s.cues ∧ (s.clipWork p b).link.cueFlags = s.link.cueFlags := by
  simp only [State.clipWork]
  split <;> exact ⟨rfl, rfl⟩

theorem playedOut_cues (s : State) : s.playedOut.cues = s.cues ∧ s.playedOut.link.cueFlags = s.link.cueFlags := by
  simp only [State.playedOut, State.outputWork, State.inPortWork, State.refreshWatch, State.outPortWork, State.setPort, clipWork_cues]
  exact ⟨rfl, rfl⟩

theorem playedOut_tracker (s : State) : s.playedOut.tracker = s.tracker := (outputWork_part _ _ _).tracker

theorem playedOut_actions (s : State) (i : LaneId) :
    (s.playedOut.lanes.get i).actions = (s.lanes.get i).actions.filter fun a => a.expiry + 1 != s.boundaryIndex := by
  rw [playedOut_lanes, workedLanes_get]
  exact boundaryWork_actions _ _

theorem playedOut_gains (s : State) :
    s.playedOut.mixer.actions = s.mixer.actions.filter fun a => a.expiry + 1 != s.boundaryIndex := by
  rw [playedOut_mixer, countedMixer_frame, leveledMixer_frame]

/-- The outcomes that reach the cues at the present boundary (R104, R134). -/
def State.outcomes (s : State) : List (CueId × Bool) := boundaryOutcomes s.lanesWork s.mixer s.boundaryIndex

/-- The four cues' work at the present boundary. -/
theorem boundaryWork_cues (s : State) :
    CuesDone (s.playedOut.workOf s.boundaryIndex s.outcomes) s.boundaryIndex CueId.list s.playedOut s.boundaryWork :=
  cuesDone_foldl _ _ _ _ (by decide)

theorem CueId.mem_list (c : CueId) : c ∈ CueId.list := by cases c <;> decide

theorem outcomeOf_eq (o : List (CueId × Bool)) (c : CueId) : outcomeOf o c = o.lookup c := by
  induction o with
  | nil => rfl
  | cons e rest ih =>
    by_cases h : e.1 = c
    · simp [outcomeOf, List.lookup, h]
    · have other : (c == e.1) = false := beq_eq_false_iff_ne.mpr (Ne.symm h)
      rw [List.lookup_cons, other, ← ih]
      simp [outcomeOf, h]

/-- Whether a gate counts the present boundary (R172). -/
theorem gateCounts_iff (s : State) (gate : Option LaneId) :
    gateCounts s.playedOut.lanes gate = true ↔ (gate = none ∨ ∃ i, gate = some i ∧
      (((s.lanes.get i).config.direction = .play ∧ (s.boundaryWork.lanes.get i).state = .playing) ∨
        ((s.lanes.get i).config.direction = .capture ∧ (s.boundaryWork.lanes.get i).state = .running))) := by
  cases gate with
  | none => simp [gateCounts]
  | some i =>
    have config : (s.playedOut.lanes.get i).config = (s.lanes.get i).config := by
      rw [playedOut_lanes, workedLanes_get]
      exact (boundaryWork_worked _ _).config
    have state : (s.playedOut.lanes.get i).state = (s.boundaryWork.lanes.get i).state := by
      rw [boundaryWork_laneState, playedOut_lanes]
    simp only [gateCounts, config, state]
    cases hd : (s.lanes.get i).config.direction <;> simp [hd]

/-- A cue's gate verdict at the present boundary. -/
def State.cueCounted (s : State) (c : CueId) : Bool := gateCounts s.playedOut.lanes (s.cues.get c).gate

/-- A cue's expiry at the present boundary. -/
def State.cueExpires (s : State) (c : CueId) : Bool :=
  decide ((s.cues.get c).state = .running) &&
    ((s.cues.get c).test (s.tracker.house? (boundaryTime s.boundaryIndex)) (s.cueCounted c)).2

/-- The work a cue does at the present boundary, by its expiry (R169 to R175). -/
theorem cueWorked_eq (s : State) (c : CueId) {q : Cue} (hq : q = (s.cues.get c).recordOutcome (outcomeOf s.outcomes c)) :
    s.playedOut.workOf s.boundaryIndex s.outcomes c =
      (s.cues.get c).boundaryWork c s.boundaryIndex (s.tracker.house? (boundaryTime s.boundaryIndex)) (s.cueCounted c)
        (outcomeOf s.outcomes c) ∧
    (s.cueExpires c = true ↔ q.state = .running ∧
      (q.test (s.tracker.house? (boundaryTime s.boundaryIndex)) (s.cueCounted c)).2 = true) := by
  refine ⟨?_, ?_⟩
  · rw [State.workOf, (playedOut_cues s).1, playedOut_tracker]
    rfl
  · have same : ((s.cues.get c).test (s.tracker.house? (boundaryTime s.boundaryIndex)) (s.cueCounted c)).2 = true ↔
        (q.test (s.tracker.house? (boundaryTime s.boundaryIndex)) (s.cueCounted c)).2 = true := by
      rw [test_expires_iff, test_expires_iff, hq, recordOutcome_eq]
    rw [State.cueExpires, Bool.and_eq_true, decide_eq_true_iff, same, hq, recordOutcome_eq]

theorem cueExpires_iff (s : State) (c : CueId) :
    s.cueExpires c = true ↔ ((s.cues.get c).state = .running ∧
      (((s.cues.get c).mode = .blocks ∧ s.cueCounted c = true ∧ (s.cues.get c).count = 0) ∨
        ((s.cues.get c).mode ≠ .blocks ∧
          ∃ h, s.tracker.house? (boundaryTime s.boundaryIndex) = some h ∧ 0 ≤ (h - (s.cues.get c).target).toInt))) := by
  rw [State.cueExpires, Bool.and_eq_true, decide_eq_true_iff, test_expires_iff]

theorem handed_eq (s : State) (c : CueId) :
    (s.playedOut.workOf s.boundaryIndex s.outcomes c).handed = if s.cueExpires c = true then (s.cues.get c).action else .none := by
  obtain ⟨work, expires⟩ := cueWorked_eq s c rfl
  rw [work, cueBoundary_eq c _ _ _ _ rfl expires, recordOutcome_eq]

/-- Records of different cues have different cue numbers. -/
theorem filterMap_cue_nodup {α : Type} (cue : α → CueId) {f : CueId → Option α} (hf : ∀ c a, f c = some a → cue a = c)
    {cs : List CueId} (hn : cs.Nodup) : ((cs.filterMap f).map fun a => (cue a).num).Nodup := by
  induction cs with
  | nil => exact List.nodup_nil
  | cons c rest ih =>
    obtain ⟨hc, hrest⟩ := List.nodup_cons.mp hn
    cases h : f c with
    | none =>
      rw [List.filterMap_cons_none h]
      exact ih hrest
    | some a =>
      rw [List.filterMap_cons_some h, List.map_cons]
      refine List.nodup_cons.mpr ⟨fun hmem => ?_, ih hrest⟩
      obtain ⟨b, hb, heq⟩ := List.mem_map.mp hmem
      obtain ⟨d, hd, hfd⟩ := List.mem_filterMap.mp hb
      have same := CueId.num_injective heq
      rw [hf c a h, hf d b hfd] at same
      exact hc (same ▸ hd)

/-- A lane's actions after a boundary (R103, R104, R174). -/
theorem boundaryWork_laneActions (s : State) (i : LaneId) :
    ((∀ a ∈ (s.lanes.get i).actions, a.expiry + 1 = s.boundaryIndex) →
      ((s.boundaryWork.lanes.get i).actions.map fun a => a.cue.num).Pairwise (· < ·)) ∧
    ∀ a, a ∈ (s.boundaryWork.lanes.get i).actions ↔ ((a ∈ (s.lanes.get i).actions ∧ a.expiry + 1 ≠ s.boundaryIndex) ∨
      (s.cueExpires a.cue = true ∧ a.expiry = s.boundaryIndex ∧
        (((s.cues.get a.cue).action = .go i ∧ a.action = .go) ∨
          ∃ flush, (s.cues.get a.cue).action = .halt i flush ∧ a.action = .halt flush))) := by
  have actions := (boundaryWork_cues s).actions i
  simp only [insertAction_eq, handed_eq, playedOut_actions] at actions
  rw [actions]
  refine ⟨fun h => ?_, fun a => ?_⟩
  · have empty : ((s.lanes.get i).actions.filter fun a => a.expiry + 1 != s.boundaryIndex) = [] :=
      List.filter_eq_nil_iff.mpr fun a ha => by rw [h a ha, bne_self_eq_false]; exact Bool.false_ne_true
    rw [empty]
    exact foldl_orderedInsert_increasing (fun a : LaneAction => a.cue.num) _ List.Pairwise.nil
      (filterMap_cue_nodup LaneAction.cue (fun c a h => (atLane_some.mp h).1) (by decide))
  · rw [mem_foldl_orderedInsert (fun a : LaneAction => a.cue.num), List.mem_filter, bne_iff_ne, List.mem_filterMap]
    refine or_congr_right ⟨?_, ?_⟩
    · rintro ⟨c, -, h⟩
      split at h
      · rename_i expires
        obtain ⟨rfl, expiry, action⟩ := atLane_some.mp h
        exact ⟨expires, expiry, action⟩
      · cases h
    · rintro ⟨expires, expiry, action⟩
      refine ⟨a.cue, CueId.mem_list _, ?_⟩
      rw [if_pos expires]
      exact atLane_some.mpr ⟨rfl, expiry, action⟩

/-- The mixer's actions after a boundary (R133, R134, R174). -/
theorem boundaryWork_mixerActions (s : State) :
    ((∀ a ∈ s.mixer.actions, a.expiry + 1 = s.boundaryIndex) →
      (s.boundaryWork.mixer.actions.map fun a => a.cue.num).Pairwise (· < ·)) ∧
    ∀ a, a ∈ s.boundaryWork.mixer.actions ↔ ((a ∈ s.mixer.actions ∧ a.expiry + 1 ≠ s.boundaryIndex) ∨
      (s.cueExpires a.cue = true ∧ a.expiry = s.boundaryIndex ∧
        ∃ ramp, (s.cues.get a.cue).action = .gain a.lane a.port a.gain ramp ∧ a.ramp = max 1 ramp)) := by
  have gains := (boundaryWork_cues s).gains
  simp only [insertGain_eq, handed_eq, playedOut_gains] at gains
  rw [gains]
  refine ⟨fun h => ?_, fun a => ?_⟩
  · have empty : (s.mixer.actions.filter fun a => a.expiry + 1 != s.boundaryIndex) = [] :=
      List.filter_eq_nil_iff.mpr fun a ha => by rw [h a ha, bne_self_eq_false]; exact Bool.false_ne_true
    rw [empty]
    exact foldl_orderedInsert_increasing (fun a : GainAction => a.cue.num) _ List.Pairwise.nil
      (filterMap_cue_nodup GainAction.cue (fun c a h => (atMixer_some.mp h).1) (by decide))
  · rw [mem_foldl_orderedInsert (fun a : GainAction => a.cue.num), List.mem_filter, bne_iff_ne, List.mem_filterMap]
    refine or_congr_right ⟨?_, ?_⟩
    · rintro ⟨c, -, h⟩
      split at h
      · rename_i expires
        obtain ⟨rfl, expiry, action⟩ := atMixer_some.mp h
        exact ⟨expires, expiry, action⟩
      · cases h
    · rintro ⟨expires, expiry, action⟩
      refine ⟨a.cue, CueId.mem_list _, ?_⟩
      rw [if_pos expires]
      exact atMixer_some.mpr ⟨rfl, expiry, action⟩

theorem mem_outcomeFlags_fired (c d : CueId) (q : Cue) (k : BlockIndex) (o : Option Bool) :
    CueFlag.fired c ∈ q.outcomeFlags d k o ↔ d = c ∧ o = some true ∧ q.reportDue = some k := by
  rcases o with _ | _ | _
  · simp [Cue.outcomeFlags]
  · simp [Cue.outcomeFlags]
  · by_cases h : q.reportDue = some k <;> simp [Cue.outcomeFlags, h, eq_comm]

theorem mem_outcomeFlags_fail (c d : CueId) (q : Cue) (k : BlockIndex) (o : Option Bool) :
    CueFlag.fail c ∈ q.outcomeFlags d k o ↔ d = c ∧ o = some false := by
  rcases o with _ | _ | _
  · simp [Cue.outcomeFlags]
  · simp [Cue.outcomeFlags, eq_comm]
  · by_cases h : q.reportDue = some k <;> simp [Cue.outcomeFlags, h]

/-- The flags a cue sets at the present boundary (R175). -/
theorem cueFlags_iff (s : State) (c : CueId) {q : Cue} (hq : q = (s.cues.get c).recordOutcome (outcomeOf s.outcomes c)) :
    (s.boundaryWork.flag (.cue (.fired c)) = true ↔ (s.flag (.cue (.fired c)) = true ∨
      (outcomeOf s.outcomes c = some true ∧ q.reportDue = some s.boundaryIndex) ∨
      (s.cueExpires c = true ∧ (q.report = .onExpiry ∨ q.action = .none)))) ∧
    (s.boundaryWork.flag (.cue (.fail c)) = true ↔ (s.flag (.cue (.fail c)) = true ∨ outcomeOf s.outcomes c = some false)) := by
  have flags : ∀ f : CueFlag, s.boundaryWork.flag (.cue f) = true ↔ s.flag (.cue f) = true ∨
      ∃ d, f ∈ (s.playedOut.workOf s.boundaryIndex s.outcomes d).flags := by
    intro f
    rw [flag_cue, flag_cue, (boundaryWork_cues s).flags f, (playedOut_cues s).2]
    simp only [CueId.mem_list, true_and]
  have made : ∀ d, (s.playedOut.workOf s.boundaryIndex s.outcomes d).flags =
      (s.cues.get d).outcomeFlags d s.boundaryIndex (outcomeOf s.outcomes d) ++
        (if s.cueExpires d = true ∧ ((s.cues.get d).report = .onExpiry ∨ (s.cues.get d).action = .none) then [.fired d] else []) := by
    intro d
    obtain ⟨work, expires⟩ := cueWorked_eq s d rfl
    rw [work, cueBoundary_eq d _ _ _ _ rfl expires, recordOutcome_eq]
  have same : q.reportDue = (s.cues.get c).reportDue ∧ q.report = (s.cues.get c).report ∧ q.action = (s.cues.get c).action := by
    rw [hq, recordOutcome_eq]
    exact ⟨rfl, rfl, rfl⟩
  obtain ⟨due, report, action⟩ := same
  rw [flags, flags, due, report, action]
  refine ⟨or_congr_right ⟨?_, ?_⟩, or_congr_right ⟨?_, ?_⟩⟩
  · rintro ⟨d, hd⟩
    rw [made, List.mem_append, mem_outcomeFlags_fired] at hd
    rcases hd with ⟨rfl, h⟩ | h
    · exact .inl h
    · split at h
      · rename_i reports
        cases List.mem_singleton.mp h
        exact .inr reports
      · cases h
  · rintro (h | h)
    · refine ⟨c, ?_⟩
      rw [made]
      exact List.mem_append_left _ ((mem_outcomeFlags_fired ..).mpr ⟨rfl, h⟩)
    · refine ⟨c, ?_⟩
      rw [made, if_pos h]
      exact List.mem_append_right _ (List.mem_singleton.mpr rfl)
  · rintro ⟨d, hd⟩
    rw [made, List.mem_append, mem_outcomeFlags_fail] at hd
    rcases hd with ⟨rfl, h⟩ | h
    · exact h
    · split at h
      · cases List.mem_singleton.mp h
      · cases h
  · intro h
    refine ⟨c, ?_⟩
    rw [made]
    exact List.mem_append_left _ ((mem_outcomeFlags_fail ..).mpr ⟨rfl, h⟩)

/-- Settles O48: the cues by `cueBoundary_eq` and `boundaryWork_cues`, the lanes' due actions by `boundaryWork_due`. -/
theorem cuesExpireAndReport : Obligations.CuesExpireAndReport := by
  refine ⟨?_, ?_, ?_, ?_⟩
  · intro s k house outcome hr hd hk hhouse houtcome
    have hk : k = s.boundaryIndex := hk
    subst hk hhouse
    have reached : ∀ c, outcome c = outcomeOf s.outcomes c := fun c => (houtcome c).trans (outcomeOf_eq s.outcomes c).symm
    refine ⟨s.boundaryWork, s.cueCounted, s.cueExpires, exec_blockBoundary hr hd, fun c => gateCounts_iff s _, cueExpires_iff s,
      fun c q hq => ?_, boundaryWork_laneActions s, (boundaryWork_mixerActions s).1, (boundaryWork_mixerActions s).2⟩
    rw [reached] at hq ⊢
    have recorded : q = (s.cues.get c).recordOutcome (outcomeOf s.outcomes c) := hq.trans (recordOutcome_eq _ _).symm
    obtain ⟨work, expires⟩ := cueWorked_eq s c recorded
    refine ⟨?_, cueFlags_iff s c recorded⟩
    have worked := congrArg CueWork.cue (work.trans (cueBoundary_eq c _ _ _ _ recorded expires))
    exact ((boundaryWork_cues s).done c (CueId.mem_list c)).trans worked
  · intro env l o m a ok fits ha hx ho hfits h
    exact boundaryWork_due env ha hx ho (apply_of_case env.now ho hfits h)
  · exact fun c k house counted ok q w v hw hv => cueBoundary_outcome c k house counted ok q hw hv
  · intro q h counted hm hlow hhigh hr
    obtain ⟨n1, advanced, later, near, skipped⟩ := advance_later hlow hhigh hr
    have tested : q.test (some h) counted = (q.advance h, true) := by
      simp only [Cue.test, hm]
      exact if_pos (decide_eq_true hr)
    refine ⟨q.advances h, n1, ?_, ?_, later, near, skipped⟩
    · rw [tested]
    · rw [tested]
      exact advanced

end Sys2Proof.Machine

/-! Releases together (R56, R71): marking several allocations and then reclaiming is what releasing them one after another comes to; and
the epoch purge, which releases so (R79). -/

namespace Sys2Proof.Machine

/-! ## Marking (R56) -/

/-- The allocations with those at some starts marked released. -/
def markAt (gone : Nat → Bool) (as : List Alloc) : List Alloc :=
  as.map fun a => { a with released := a.released || gone a.start }

theorem markAt_markAt (g h : Nat → Bool) (as : List Alloc) : markAt g (markAt h as) = markAt (fun o => h o || g o) as := by
  simp [markAt, Bool.or_assoc]

theorem markAt_none (as : List Alloc) : markAt (fun _ => false) as = as := by simp [markAt]

/-- Marking as the release of one allocation writes it. -/
theorem markAt_eq {p : Nat → Prop} [DecidablePred p] (as : List Alloc) :
    (as.map fun a => if p a.start then { a with released := true } else a) = markAt (fun o => decide (p o)) as := by
  refine List.map_congr_left fun a _ => ?_
  by_cases h : p a.start <;> simp [h]

/-- Reclaiming takes the oldest allocations that are marked (R56). -/
theorem reclaimFrom_eq (size : Nat) (as : List Alloc) {r : Nat} (hr : r < size) :
    reclaimFrom size as r = (as.dropWhile Alloc.released, (r + allocWords (as.takeWhile Alloc.released)) % size) := by
  induction as generalizing r with
  | nil => simp [reclaimFrom, allocWords, Nat.mod_eq_of_lt hr]
  | cons a rest ih =>
    cases h : a.released with
    | true =>
      simp only [reclaimFrom, h, if_true, ih (Nat.mod_lt _ (Nat.zero_lt_of_lt hr)), List.dropWhile_cons_of_pos h,
        List.takeWhile_cons_of_pos h, Nat.mod_add_mod, allocWords, List.map_cons, List.sum_cons, Nat.add_assoc]
    | false => simp [reclaimFrom, h, allocWords, Nat.mod_eq_of_lt hr]

/-- Reclaiming between two markings takes no more than reclaiming after both. -/
theorem reclaim_between (g h : Nat → Bool) (as : List Alloc) :
    (markAt g ((markAt h as).dropWhile Alloc.released)).dropWhile Alloc.released =
        (markAt (fun o => h o || g o) as).dropWhile Alloc.released ∧
      allocWords ((markAt h as).takeWhile Alloc.released) +
          allocWords ((markAt g ((markAt h as).dropWhile Alloc.released)).takeWhile Alloc.released) =
        allocWords ((markAt (fun o => h o || g o) as).takeWhile Alloc.released) := by
  induction as with
  | nil => exact ⟨rfl, rfl⟩
  | cons a rest ih =>
    have cons : ∀ k : Nat → Bool, markAt k (a :: rest) = { a with released := a.released || k a.start } :: markAt k rest := fun _ => rfl
    cases first : a.released || h a.start with
    | true =>
      have both : (a.released || (h a.start || g a.start)) = true := by rw [← Bool.or_assoc, first, Bool.true_or]
      rw [cons h, cons, first, both, List.dropWhile_cons_of_pos rfl, List.takeWhile_cons_of_pos rfl, List.dropWhile_cons_of_pos rfl,
        List.takeWhile_cons_of_pos rfl]
      refine ⟨ih.1, ?_⟩
      simp only [allocWords, List.map_cons, List.sum_cons, Nat.add_assoc] at ih ⊢
      rw [ih.2]
    | false =>
      have stays : (markAt h (a :: rest)).dropWhile Alloc.released = markAt h (a :: rest) ∧
          (markAt h (a :: rest)).takeWhile Alloc.released = [] := by
        rw [cons h, first]
        exact ⟨rfl, rfl⟩
      rw [stays.1, stays.2, markAt_markAt]
      exact ⟨rfl, Nat.zero_add _⟩

/-! ## Releasing (R56, R71) -/

/-- The lane with some allocations marked and its ring reclaimed. -/
def Lane.markAndReclaim (l : Lane) (gone : Nat → Bool) : Lane :=
  { l with
    allocs := (markAt gone l.allocs).dropWhile Alloc.released
    reclaimOffset := (l.reclaimOffset + allocWords ((markAt gone l.allocs).takeWhile Alloc.released)) % l.config.regionSize }

theorem releaseAlloc_eq {l : Lane} (hr : l.reclaimOffset < l.config.regionSize) (o : Nat) :
    l.releaseAlloc o = l.markAndReclaim fun start => decide (start = o) := by
  simp only [Lane.releaseAlloc, markAt_eq (p := fun start => start = o), reclaimFrom_eq _ _ hr]
  rfl

theorem markAndReclaim_twice (l : Lane) (g h : Nat → Bool) :
    (l.markAndReclaim h).markAndReclaim g = l.markAndReclaim fun o => h o || g o := by
  obtain ⟨allocs, words⟩ := reclaim_between g h l.allocs
  simp only [Lane.markAndReclaim, allocs, Nat.mod_add_mod, Nat.add_assoc, words]

theorem markAndReclaim_none {l : Lane} (hr : l.reclaimOffset < l.config.regionSize)
    (hold : ∀ a, l.allocs.head? = some a → a.released = false) : l.markAndReclaim (fun _ => false) = l := by
  have stays : l.allocs.dropWhile Alloc.released = l.allocs ∧ l.allocs.takeWhile Alloc.released = [] := by
    cases h : l.allocs with
    | nil => exact ⟨rfl, rfl⟩
    | cons a rest =>
      have first := hold a (by rw [h]; rfl)
      simp [first]
  simp only [Lane.markAndReclaim, markAt_none, stays.1, stays.2]
  simp [allocWords, Nat.mod_eq_of_lt hr]

/-- Releasing frames one after another marks their allocations and then reclaims (R56). -/
theorem foldl_releaseAlloc_eq {l : Lane} (hr : l.reclaimOffset < l.config.regionSize)
    (hold : ∀ a, l.allocs.head? = some a → a.released = false) (fs : List FrameRecord) :
    fs.foldl (fun m f => m.releaseAlloc f.offset) l = l.markAndReclaim fun o => fs.any fun f => f.offset == o := by
  have after : ∀ (fs : List FrameRecord) (g : Nat → Bool), fs.foldl (fun m f => m.releaseAlloc f.offset) (l.markAndReclaim g) =
      l.markAndReclaim fun o => g o || fs.any fun f => f.offset == o := by
    intro fs
    induction fs with
    | nil =>
      intro g
      simp
    | cons f rest ih =>
      intro g
      have within : (l.markAndReclaim g).reclaimOffset < (l.markAndReclaim g).config.regionSize :=
        Nat.mod_lt _ (Nat.zero_lt_of_lt hr)
      rw [List.foldl_cons, releaseAlloc_eq within, markAndReclaim_twice, ih]
      congr 1
      funext o
      rw [List.any_cons, Bool.or_assoc, beq_eq_decide, decide_eq_decide.mpr (eq_comm (a := o) (b := f.offset))]
  have start := after fs fun _ => false
  rw [markAndReclaim_none hr hold] at start
  rw [start]
  simp

/-- Settles O31: every release marks and then reclaims. -/
theorem releaseMarksAndReclaims : Obligations.ReleaseMarksAndReclaims := by
  intro l hr hold
  have marks : ∀ {p : Nat → Prop} [DecidablePred p] {marked : List Alloc} {gone : Nat → Bool},
      marked = l.allocs.map (fun a => if p a.start then { a with released := true } else a) → (∀ o, gone o = true ↔ p o) →
      marked = markAt gone l.allocs := by
    intro p _ marked gone hm hg
    rw [hm, markAt_eq]
    congr 1
    funext o
    rw [Bool.eq_iff_iff, decide_eq_true_iff, hg]
  refine ⟨fun p marked hm => ?_, fun f rest marked hq hm => ?_, fun f marked hf hm => ?_⟩
  · have hm := marks (p := fun o => ∃ f ∈ l.queue, p f = true ∧ f.offset = o)
      (gone := fun o => (l.queue.filter p).any fun f => f.offset == o) hm
      (fun o => by simp [List.any_eq_true])
    have cursor : (l.queue.filter p).any (fun f => f.status == .playing) = true ↔
        ∃ f ∈ l.queue, p f = true ∧ f.status = .playing := by simp [List.any_eq_true]
    simp only [Lane.releaseWhere, foldl_releaseAlloc_eq hr hold, Lane.markAndReclaim, ← hm, cursor]
    rfl
  · have hm := marks (p := fun o => f.offset = o) (gone := fun o => decide (o = f.offset)) hm (fun o => by simp [eq_comm])
    simp only [Lane.releaseHead, hq, releaseAlloc_eq hr, Lane.markAndReclaim, ← hm]
    rfl
  · have hm := marks (p := fun o => f.record.offset = o) (gone := fun o => decide (o = f.record.offset)) hm
      (fun o => by simp [eq_comm])
    simp only [Lane.discardFilling, hf, releaseAlloc_eq hr, Lane.markAndReclaim, ← hm]
    rfl

/-! ## The epoch purge (R79) -/

theorem outside_eq (t : Tracker) {gone : FrameRecord → Bool}
    (h : ∀ f, gone f = (decide (f.epoch ≠ t.epoch) && decide (t.candidate ≠ some f.epoch))) :
    FrameRecord.outside t.epoch t.candidate = gone := by
  funext f
  rw [h, Bool.eq_iff_iff]
  simp [FrameRecord.outside, ne_comm]

/-- Settles O13: the release of the frames outside the epochs, their count, and the watermark check. -/
theorem purgeLeavesOnlyTheEpochs : Obligations.PurgeLeavesOnlyTheEpochs := by
  intro i s l r gone hl hgone hr
  have purged : s.purge.lanes.get i = l.purge s.tracker.epoch s.tracker.candidate := by simp [hl]
  refine ⟨fun hd => ?_, fun hd => ?_⟩
  · rw [purged, Lane.purge, hd, if_neg (by decide)]
  · have frame := (releaseWhere_released l gone).frame
    rw [← hr] at frame
    have value : s.purge.lanes.get i = { r with
        counters := { l.counters with purges := min (l.counters.purges + (l.queue.filter gone).length) 65535 }
        flags := l.flags
          ||| (if l.config.low ≤ l.buffered ∧ r.buffered < l.config.low then 0x10 else 0)
          ||| (if l.buffered ≤ l.config.high ∧ l.config.high < r.buffered then 0x08 else 0) } := by
      have config : r.config = l.config := by rw [frame]
      have counters : r.counters = l.counters := by rw [frame]
      have flags : r.flags = l.flags := by rw [frame]
      rw [purged, Lane.purge, if_pos hd, outside_eq s.tracker hgone]
      dsimp only
      rw [← hr, counters]
      refine (watermark_eq _ _ (by dsimp only; rw [config, hd])).trans ?_
      dsimp only
      rw [config, flags]
      rfl
    have queue : r.queue = l.queue.filter fun f => !gone f := by rw [hr, releaseWhere_queue]
    have cursor : r.cursor = if ∃ f ∈ l.queue, gone f = true ∧ f.status = .playing then none else l.cursor := by
      rw [hr]
      refine if_congr ?_ rfl rfl
      simp [List.any_eq_true]
    refine ⟨value, ?_, ?_, ?_⟩
    · rw [value]
      refine queue.trans (List.filter_congr fun f _ => ?_)
      rw [hgone, Bool.eq_iff_iff]
      simp
    · rw [value]
      exact cursor
    · rw [value, frame]
      exact ⟨rfl, rfl, rfl, rfl, rfl⟩

end Sys2Proof.Machine

/-! LCFG (R47 to R52): the carried configuration and its clamps, the checks in their order, and what a request that passes stores. -/

namespace Sys2Proof.Machine

/-! ## The carried configuration (R47, R49) -/

/-- The configuration an LCFG carries, its codes read and nothing clamped (R47). -/
def carriedRaw (r : LcfgReq) (dir : Direction) (pol : SyncPolicy) : LaneConfig :=
  { direction := dir, firstPage := r.firstPage, lastPage := r.lastPage, quota := r.quota.toNat, channels := r.channels.toNat,
    policy := pol, leadLimit := r.leadLimit.toNat, low := r.low.toNat, high := r.high.toNat, roomOffset := r.roomOffset.toInt,
    gs := r.gs.toNat, trimMax := r.trimMax.toNat, slipLimit := r.slipLimit.toNat, frameSize := r.frameSize.toNat,
    dataMark := r.dataMark.toNat, inputLatency := r.inputLatency.toNat }

theorem carriedConfig_of_codes {r : LcfgReq} {en : Bool} {dir : Direction} {pol : SyncPolicy}
    (he : r.enable = (if en then 1 else 0)) (hd : dir.code = r.direction) (hp : pol.code = r.policy)
    (hc : r.channels = 1 ∨ r.channels = 2) (hq : 1 ≤ r.quota.toNat) (hq128 : r.quota.toNat ≤ 128)
    (hpages : r.firstPage.toNat ≤ r.lastPage.toNat) : carriedConfig r = some (en, carriedRaw r dir pol) := by
  have channels : (r.channels == 1 || r.channels == 2) = true := by rcases hc with h | h <;> rw [h] <;> rfl
  simp only [carriedConfig, he, readBool_code, ← hd, readDirection_code, ← hp, readPolicy_code, channels, hq, hq128, hpages,
    decide_true, Bool.and_true, if_true]
  rfl

/-- Check 1 fails (R47). -/
theorem carriedConfig_none {r : LcfgReq} (h : 1 < r.enable.toNat ∨ 1 < r.direction.toNat ∨ 1 < r.policy.toNat ∨
    (r.channels ≠ 1 ∧ r.channels ≠ 2) ∨ r.quota = 0 ∨ 128 < r.quota.toNat ∨ r.lastPage.toNat < r.firstPage.toNat) :
    carriedConfig r = none := by
  have direction : ∀ b : Byte, 1 < b.toNat → readDirection b = none := by decide +kernel
  have policy : ∀ b : Byte, 1 < b.toNat → readPolicy b = none := by decide +kernel
  unfold carriedConfig
  split
  · rename_i en dir pol hen hdir hpol
    refine if_neg fun hall => ?_
    simp only [Bool.and_eq_true, Bool.or_eq_true, beq_iff_eq, decide_eq_true_eq] at hall
    obtain ⟨⟨⟨channels, low⟩, high⟩, pages⟩ := hall
    rcases h with h | h | h | h | h | h | h
    · rw [(readBool_none _).mpr h] at hen
      cases hen
    · rw [direction _ h] at hdir
      cases hdir
    · rw [policy _ h] at hpol
      cases hpol
    · exact not_or.mpr h channels
    · rw [h] at low
      exact absurd low (by decide)
    · omega
    · omega
  · rfl

/-- The carried configuration with every clamp (R49). -/
def carriedClamped (r : LcfgReq) (dir : Direction) (pol : SyncPolicy) (cap low : Nat) : LaneConfig :=
  { direction := dir, firstPage := r.firstPage, lastPage := r.lastPage, quota := r.quota.toNat,
    channels := r.channels.toNat, policy := pol, leadLimit := max 24576 (min 1474560000 r.leadLimit.toNat),
    low := low, high := max low (min r.high.toNat cap),
    roomOffset := max (-1048576) (min 1048575 r.roomOffset.toInt), gs := max 6 (min 14 r.gs.toNat),
    trimMax := min r.trimMax.toNat 13421, slipLimit := max 512 (min 1048575 r.slipLimit.toNat),
    frameSize := max 64 (min 1024 (r.frameSize.toNat / 64 * 64)),
    dataMark := max 1 (min r.quota.toNat r.dataMark.toNat), inputLatency := r.inputLatency.toNat }

theorem carriedRaw_clamp (r : LcfgReq) (dir : Direction) (pol : SyncPolicy) {cap low : Nat}
    (hcap : cap = (r.lastPage.toNat - r.firstPage.toNat + 1) * 1024 / r.channels.toNat) (hlow : low = min r.low.toNat cap) :
    (carriedRaw r dir pol).clamp = carriedClamped r dir pol cap low := by
  have latency : min r.inputLatency.toNat 65535 = r.inputLatency.toNat := Nat.min_eq_left (by omega)
  subst hlow hcap
  unfold LaneConfig.clamp carriedClamped
  simp only [carriedRaw, latency]
  rfl

/-- A configuration is adjusted exactly when a value was clamped (R49, R191). -/
theorem clamped_eq_raw_iff {r : LcfgReq} {dir : Direction} {pol : SyncPolicy} {cap low : Nat} {c : LaneConfig}
    (hc : c = carriedClamped r dir pol cap low) :
    c = carriedRaw r dir pol ↔ c.leadLimit = r.leadLimit.toNat ∧ c.low = r.low.toNat ∧ c.high = r.high.toNat ∧
      c.roomOffset = r.roomOffset.toInt ∧ c.gs = r.gs.toNat ∧ c.trimMax = r.trimMax.toNat ∧ c.slipLimit = r.slipLimit.toNat ∧
      c.frameSize = r.frameSize.toNat ∧ c.dataMark = r.dataMark.toNat := by
  subst hc
  simp only [carriedClamped, carriedRaw, LaneConfig.mk.injEq, true_and, and_true]

/-! ## The checks (R47, R48, R50) -/

theorem mem_otherEnabled {s : State} {i : LaneId} {p : Lane → Bool} :
    (s.otherEnabled i).any p = true ↔ ∃ j, j ≠ i ∧ (s.lanes.get j).state ≠ .off ∧ p (s.lanes.get j) = true := by
  simp only [State.otherEnabled, List.any_map, List.any_filter, List.any_eq_true, LaneId.mem_list, true_and, Lane.enabled,
    Bool.and_eq_true, bne_iff_ne, and_assoc, Function.comp]

/-- The change is permitted in the lane's state (R48). -/
theorem mayConfigure_iff (l : Lane) (en : Bool) (c : LaneConfig) :
    l.mayConfigure en c = true ↔ l.state = .off ∨
      (l.state = .stopped ∧ c.direction = l.config.direction ∧ c.firstPage = l.config.firstPage ∧
        c.lastPage = l.config.lastPage ∧ (c.channels = l.config.channels ∨ l.held = 0)) ∨
      (l.state ≠ .off ∧ l.state ≠ .stopped ∧ en = true ∧ c = l.config.withChangeable c) := by
  unfold Lane.mayConfigure
  split
  · simp [*]
  · split
    · rename_i h
      simp [h, and_assoc]
    · simp [*]

/-- The refusal of an LCFG by its checks 2 to 6, in order. -/
theorem configRefusal_cases {s : State} {i : LaneId} {en : Bool} {c : LaneConfig} {permitted enabling overlap twin excess : Prop}
    (hperm : (s.lanes.get i).mayConfigure en c = true ↔ permitted) (hen : enabling ↔ en = true ∧ (s.lanes.get i).state = .off)
    (hover : (s.otherEnabled i).any (fun o => c.overlaps o.config) = true ↔ overlap)
    (htwin : (c.direction = .capture ∧ (s.otherEnabled i).any (fun o => o.config.direction == .capture) = true) ↔ twin)
    (hexcess : ((enabling ∨ (s.lanes.get i).state ≠ .off) ∧ 128 < c.quota + ((s.otherEnabled i).map (fun o => o.config.quota)).sum) ∨
      ((s.lanes.get i).state ≠ .off ∧ c.quota < (s.lanes.get i).held) ↔ excess) :
    (¬ permitted → s.configRefusal i en c = some .eState) ∧
    (permitted → enabling → overlap → s.configRefusal i en c = some .eOverlap) ∧
    (permitted → enabling → ¬ overlap → twin → s.configRefusal i en c = some .eBound) ∧
    (permitted → ¬ (enabling ∧ (overlap ∨ twin)) → excess → s.configRefusal i en c = some .eQuota) ∧
    (permitted → ¬ (enabling ∧ (overlap ∨ twin)) → ¬ excess → s.configRefusal i en c = none) := by
  have c1 : (!(s.lanes.get i).mayConfigure en c) = true ↔ ¬ permitted := by rw [Bool.not_eq_true', Bool.eq_false_iff, ne_eq, hperm]
  have on : (en && (s.lanes.get i).state == .off) = true ↔ enabling := by rw [Bool.and_eq_true, beq_iff_eq, hen]
  have c2 : (en && (s.lanes.get i).state == .off && (s.otherEnabled i).any (fun o => c.overlaps o.config)) = true ↔
      enabling ∧ overlap := by rw [Bool.and_eq_true, on, hover]
  have c3 : (en && (s.lanes.get i).state == .off && c.direction == .capture &&
      (s.otherEnabled i).any (fun o => o.config.direction == .capture)) = true ↔ enabling ∧ twin := by
    rw [Bool.and_eq_true, Bool.and_eq_true, on, beq_iff_eq, and_assoc, htwin]
  have enabled : (s.lanes.get i).enabled = true ↔ (s.lanes.get i).state ≠ .off := by rw [Lane.enabled, bne_iff_ne]
  have c4 : ((en && (s.lanes.get i).state == .off || (s.lanes.get i).enabled) &&
      decide (128 < c.quota + ((s.otherEnabled i).map (fun o => o.config.quota)).sum)) = true ↔
      ((enabling ∨ (s.lanes.get i).state ≠ .off) ∧ 128 < c.quota + ((s.otherEnabled i).map (fun o => o.config.quota)).sum) := by
    rw [Bool.and_eq_true, Bool.or_eq_true, on, enabled, decide_eq_true_iff]
  have c5 : ((s.lanes.get i).enabled && decide (c.quota < (s.lanes.get i).held)) = true ↔
      ((s.lanes.get i).state ≠ .off ∧ c.quota < (s.lanes.get i).held) := by rw [Bool.and_eq_true, enabled, decide_eq_true_iff]
  unfold State.configRefusal
  dsimp only
  refine ⟨fun h => if_pos (c1.mpr h), fun h h1 h2 => ?_, fun h h1 h2 h3 => ?_, fun h hno hx => ?_, fun h hno hx => ?_⟩
  · rw [if_neg fun e => c1.mp e h, if_pos (c2.mpr ⟨h1, h2⟩)]
  · rw [if_neg fun e => c1.mp e h, if_neg fun e => h2 (c2.mp e).2, if_pos (c3.mpr ⟨h1, h3⟩)]
  · rw [if_neg fun e => c1.mp e h, if_neg fun e => hno ((c2.mp e).imp_right .inl), if_neg fun e => hno ((c3.mp e).imp_right .inr)]
    rcases hexcess.mpr hx with h | h
    · exact if_pos (c4.mpr h)
    · rw [if_pos (c5.mpr h), ite_self]
  · rw [if_neg fun e => c1.mp e h, if_neg fun e => hno ((c2.mp e).imp_right .inl), if_neg fun e => hno ((c3.mp e).imp_right .inr),
      if_neg fun e => hx (hexcess.mp (.inl (c4.mp e))), if_neg fun e => hx (hexcess.mp (.inr (c5.mp e)))]

/-! ## The request (R47) -/

theorem configOwner_refused {r : LcfgReq} {i : LaneId} {en : Bool} {raw : LaneConfig} {code : ResultCode} {s : State}
    (hi : r.lane.toNat = i.num) (hc : carriedConfig r = some (en, raw)) (h : s.configRefusal i en raw.clamp = some code) :
    configOwner r s = (s, [code.code]) := by
  simp only [configOwner, readLane_of_num hi, hc, h]
  rfl

theorem configOwner_taken {r : LcfgReq} {i : LaneId} {en : Bool} {raw c : LaneConfig} {s : State} {k : Lane} {code : Byte}
    (hi : r.lane.toNat = i.num) (hc : carriedConfig r = some (en, raw)) (hclamp : raw.clamp = c)
    (h : s.configRefusal i en c = none) (hk : (s.lanes.get i).configure en c = k) (hcode : code = if c = raw then 0x00 else 0x01) :
    configOwner r s = (s.setLane i k, code :: (configFields i k ++ [k.state.code])) := by
  subst hclamp
  simp only [configOwner, readLane_of_num hi, hc, h, hk, acceptOr_ne]
  rw [hcode]
  rfl

theorem configOwner_unread {r : LcfgReq} (h : 5 < r.lane.toNat ∨ carriedConfig r = none) (s : State) :
    configOwner r s = (s, [0x12]) := by
  unfold configOwner
  rcases h with h | h
  · rw [(readLane_none _).mpr h]
    rfl
  · rw [h]
    cases readLane r.lane <;> rfl

/-- The quotas of the other enabled lanes. -/
theorem otherQuotas_eq (s : State) (i : LaneId) :
    ((s.otherEnabled i).map fun o => o.config.quota).sum =
      ((LaneId.list.filter (fun j => j != i && (s.lanes.get j).enabled)).map fun j => (s.lanes.get j).config.quota).sum := by
  rw [State.otherEnabled, List.map_map]
  rfl

theorem overlaps_iff (c d : LaneConfig) :
    c.overlaps d = true ↔ c.firstPage.toNat ≤ d.lastPage.toNat ∧ d.firstPage.toNat ≤ c.lastPage.toNat := by
  rw [LaneConfig.overlaps, Bool.and_eq_true, decide_eq_true_iff, decide_eq_true_iff]

/-- Settles O30, by the checks' order and the three things a request that passes does. -/
theorem lcfgChecksAndStores : Obligations.LcfgChecksAndStores := by
  intro tag r s hs
  refine ⟨fun h => ?_, ?_⟩
  · have owner : configOwner r s = (s, [0x12]) := configOwner_unread (h.imp_right carriedConfig_none) s
    exact exec_served hs owner rfl rfl rfl
  · intro i l k en dir pol cap low others c code permitted enabling overlap twin excess hi hl he hd hp hch hq hq128 hpages hcap hlow hc
      hcode hothers hperm hen hover htwin hexcess
    subst hl hothers
    have carried := carriedConfig_of_codes he hd hp hch hq hq128 hpages
    have clamp : (carriedRaw r dir pol).clamp = c := (carriedRaw_clamp r dir pol hcap hlow).trans hc.symm
    have direction : c.direction = dir := by rw [hc]
    have first : c.firstPage = r.firstPage := by rw [hc]
    have last : c.lastPage = r.lastPage := by rw [hc]
    have channels : c.channels = r.channels.toNat := by rw [hc]
    have quota : c.quota = r.quota.toNat := by rw [hc]
    have permits : (s.lanes.get i).mayConfigure en c = true ↔ permitted := by
      rw [mayConfigure_iff, hperm, direction, first, last, channels]
      rfl
    obtain ⟨r1, r2, r3, r4, passes⟩ := configRefusal_cases (s := s) (i := i) (en := en) (c := c) permits hen
      (overlap := overlap) (twin := twin) (excess := excess)
      (by rw [mem_otherEnabled, hover]; simp only [overlaps_iff, first, last])
      (by rw [mem_otherEnabled, htwin, direction]; simp only [beq_iff_eq])
      (by rw [hexcess, otherQuotas_eq, quota])
    have refused : ∀ x : ResultCode, s.configRefusal i en c = some x →
        exec (.lcfg tag r) s = .next (s.postAnswer { type := 0x90, tag := tag, payload := [x.code] }) := by
      intro x hx
      exact exec_served hs (configOwner_refused hi carried (clamp.symm ▸ hx)) rfl rfl rfl
    refine ⟨?_, fun h1 h2 h3 h => ?_⟩
    · rintro x (⟨h, rfl⟩ | ⟨h, h1, h2, rfl⟩ | ⟨h, h1, h2, h3, rfl⟩ | ⟨h, h1, h2, rfl⟩)
      · exact refused _ (r1 h)
      · exact refused _ (r2 h h1 h2)
      · exact refused _ (r3 h h1 h2 h3)
      · exact refused _ (r4 h h1 h2)
    · have stored : (s.lanes.get i).configure en c = k := by
        rcases configure_cases (s.lanes.get i) en c with ⟨e1, e2, e⟩ | ⟨e1, e2, e⟩ | ⟨e1, e2, e⟩ <;> rw [e]
        · rcases h with ⟨-, rfl⟩ | ⟨e3, -, -⟩ | ⟨e3, -, -⟩
          · rfl
          · rw [e1] at e3
            cases e3
          · exact absurd (hen.mpr ⟨e1, e2⟩) e3
        · rcases h with ⟨e3, -⟩ | ⟨-, -, rfl⟩ | ⟨-, e3, -⟩
          · rw [e1] at hen
            exact absurd (hen.mp e3).1 Bool.false_ne_true
          · rfl
          · exact absurd ⟨e1, e2⟩ e3
        · rcases h with ⟨e3, -⟩ | ⟨e3, e4, -⟩ | ⟨-, -, rfl⟩
          · exact absurd (hen.mp e3) e1
          · exact absurd ⟨e3, e4⟩ e2
          · rfl
      have codes : code = if c = carriedRaw r dir pol then 0x00 else 0x01 := by
        rw [hcode]
        exact if_congr (clamped_eq_raw_iff hc).symm rfl rfl
      exact exec_served hs (configOwner_taken hi carried clamp (passes h1 h2 h3) stored codes) rfl rfl rfl

/-- Settles O29: an enabling request is one that passes the checks of O30. -/
theorem lcfgEnablesAnOffLane : Obligations.LcfgEnablesAnOffLane := by
  intro tag r i dir pol s hs hi he hd hp hch hq hpages off apart fits
  refine ⟨_, _, _, _, rfl, rfl, rfl, rfl, ?_⟩
  refine ((lcfgChecksAndStores tag r s hs).2 i _ _ true dir pol _ _ _ _ _ True True False False False hi rfl he hd hp hch hq (by omega)
    hpages rfl rfl rfl rfl rfl ?_ ?_ ?_ ?_ ?_).2 trivial ?_ id (.inl ⟨trivial, rfl⟩)
  · exact (iff_of_true trivial (.inl off))
  · exact (iff_of_true trivial ⟨rfl, off⟩)
  · refine iff_of_false id ?_
    rintro ⟨j, hj, on, h1, h2⟩
    have := (apart j hj on).1
    omega
  · refine iff_of_false id ?_
    rintro ⟨hcap, j, hj, on, h⟩
    exact (apart j hj on).2 hcap h
  · refine iff_of_false id ?_
    rintro (⟨-, h⟩ | ⟨on, -⟩)
    · omega
    · exact on off
  · exact fun h => h.2.elim id id

end Sys2Proof.Machine

/-! LBIND (R63 to R66): the refusals in their order, the immediate binding, and the pending switch. -/

namespace Sys2Proof.Machine

/-! ## Releases and the fields they do not read -/

theorem foldl_releaseAlloc_congr {l m : Lane} (hc : m.config = l.config) (ha : m.allocs = l.allocs)
    (hr : m.reclaimOffset = l.reclaimOffset) (fs : List FrameRecord) :
    (fs.foldl (fun n f => n.releaseAlloc f.offset) m).allocs = (fs.foldl (fun n f => n.releaseAlloc f.offset) l).allocs ∧
      (fs.foldl (fun n f => n.releaseAlloc f.offset) m).reclaimOffset =
        (fs.foldl (fun n f => n.releaseAlloc f.offset) l).reclaimOffset := by
  induction fs generalizing l m with
  | nil => exact ⟨ha, hr⟩
  | cons f rest ih =>
    refine ih (l := l.releaseAlloc f.offset) (m := m.releaseAlloc f.offset) hc ?_ ?_ <;>
      simp only [Lane.releaseAlloc, hc, ha, hr]

/-- A release reads and writes the configuration, the ring, the queue and the cursor alone (R71). -/
theorem releaseWhere_congr {l m : Lane} (hc : m.config = l.config) (ha : m.allocs = l.allocs)
    (hr : m.reclaimOffset = l.reclaimOffset) (hq : m.queue = l.queue) (hcur : m.cursor = l.cursor) (p : FrameRecord → Bool) :
    m.releaseWhere p = { m with
      allocs := (l.releaseWhere p).allocs
      reclaimOffset := (l.releaseWhere p).reclaimOffset
      queue := (l.releaseWhere p).queue
      cursor := (l.releaseWhere p).cursor } := by
  have ring := foldl_releaseAlloc_congr hc ha hr (l.queue.filter p)
  rw [(releaseWhere_released m p).frame]
  simp only [Lane.releaseWhere, hq, hcur, ring.1, ring.2]

theorem releaseWhere_nothing (l : Lane) : l.releaseWhere (fun _ => false) = l := by
  simp [Lane.releaseWhere]

/-! ## The answer (R63) -/

theorem bindFields_eq {i : LaneId} {n : Byte} (hn : n.toNat = i.num) {l : Lane} {current switch : List Byte}
    (hc : optField 2 put16 l.current = current)
    (hs : optField 2 put16 (l.switch.map Switch.stream) ++ put48 ((l.switch.map Switch.time).getD 0) = switch) :
    bindFields i l =
      n :: (current ++ switch ++ BitVec.ofNat 8 l.held :: put32 (BitVec.ofNat 32 l.buffered)) := by
  subst hc hs
  simp only [bindFields, Lane.bindingFields, nat8, byte_of_laneNum hn, nat32, List.append_assoc]
  rfl

theorem noSwitch_fields {l : Lane} (h : l.switch = none) :
    optField 2 put16 (l.switch.map Switch.stream) ++ put48 ((l.switch.map Switch.time).getD 0) = [0, 0, 0, 0, 0, 0, 0, 0, 0] := by
  rw [h]
  rfl

/-! ## The checks (R63) -/

theorem readOpt_absent {α : Type} {p : Byte} (h : p = 0) (v : α) : readOpt p v = some none := if_pos h

theorem readOpt_present {α : Type} {p : Byte} (h : p = 1) (v : α) : readOpt p v = some (some v) := by
  rw [h]
  rfl

theorem readOpt_unknown {α : Type} {p : Byte} (h : 1 < p.toNat) (v : α) : readOpt p v = none := by
  unfold readOpt
  rw [if_neg (by rintro rfl; exact absurd h (by decide)), if_neg (by rintro rfl; exact absurd h (by decide))]

/-- The carried stream is current or pending on another lane, or with a switch time current on this one (R63). -/
def State.streamTaken (s : State) (i : LaneId) (stream : Option StreamId) (time : Option Time) : Prop :=
  ∃ st, stream = some st ∧ (s.boundElsewhere i st = true ∨ (time.isSome = true ∧ (s.lanes.get i).current = some st))

theorem bindOwner_unread {r : LbindReq} (h : 5 < r.lane.toNat ∨ 1 < r.streamP.toNat ∨ 1 < r.timeP.toNat ∨ (r.streamP = 0 ∧ r.timeP = 1))
    (s : State) : bindOwner r s = (s, [0x12]) := by
  unfold bindOwner
  rcases h with h | h | h | ⟨h1, h2⟩
  · rw [(readLane_none _).mpr h]
    rfl
  · rw [readOpt_unknown h]
    cases readLane r.lane <;> rfl
  · rw [readOpt_unknown h]
    cases readLane r.lane <;> cases readOpt r.streamP r.stream <;> rfl
  · rw [readOpt_absent h1, readOpt_present h2]
    cases readLane r.lane <;> rfl

section Checks

variable {r : LbindReq} {i : LaneId} {stream : Option StreamId} {time : Option Time} {s : State} (hi : r.lane.toNat = i.num)
  (hst : readOpt r.streamP r.stream = some stream) (hti : readOpt r.timeP r.time = some time)
include hi hst hti

theorem bindOwner_notPlay (h : stream = none → time = none) (hp : (s.lanes.get i).isPlay = false) : bindOwner r s = (s, [0x13]) := by
  have named : ¬ (stream.isNone && time.isSome) = true := by
    cases stream with
    | none => rw [h rfl]; exact Bool.false_ne_true
    | some st => exact Bool.false_ne_true
  simp only [bindOwner, readLane_of_num hi, hst, hti, if_neg named, hp]
  rfl

theorem bindOwner_taken (hp : (s.lanes.get i).isPlay = true) (h : s.streamTaken i stream time) : bindOwner r s = (s, [0x31]) := by
  obtain ⟨st, rfl, htaken⟩ := h
  have taken : (s.boundElsewhere i st || (time.isSome && (s.lanes.get i).current == some st)) = true := by simpa using htaken
  simp only [bindOwner, readLane_of_num hi, hst, hti, hp, taken]
  rfl

end Checks

section Passed

variable {r : LbindReq} {i : LaneId} {s : State} (hi : r.lane.toNat = i.num) (hp : (s.lanes.get i).isPlay = true)
include hi hp

/-- A request without a switch time whose stream is free (R64). -/
theorem bindOwner_now {stream : Option StreamId} (hst : readOpt r.streamP r.stream = some stream)
    (hti : readOpt r.timeP r.time = some none) (hfree : ¬ s.streamTaken i stream none) :
    bindOwner r s = if (s.lanes.get i).state = .stopped ∨ (s.lanes.get i).state = .drained then
        (s.setLane i (((s.lanes.get i).bindNow stream).watermark (s.lanes.get i).buffered),
          0x00 :: bindFields i (((s.lanes.get i).bindNow stream).watermark (s.lanes.get i).buffered))
      else (s, [0x13]) := by
  cases stream with
  | none =>
    simp only [bindOwner, readLane_of_num hi, hst, hti, hp]
    rfl
  | some st =>
    have free : s.boundElsewhere i st = false := Bool.eq_false_iff.mpr fun e => hfree ⟨st, rfl, .inl e⟩
    simp only [bindOwner, readLane_of_num hi, hst, hti, hp, free]
    rfl

/-- A request with a switch time whose stream is free (R65). -/
theorem bindOwner_switch (hst : r.streamP = 1) (hti : r.timeP = 1) (hfree : ¬ s.streamTaken i (some r.stream) (some r.time))
    {l m : Lane} (hm : (s.lanes.get i).setSwitch { stream := r.stream, time := r.time } = m)
    (hl : (m.settleSwitch (s.latePoint? m) { stream := r.stream, time := r.time }).watermark (s.lanes.get i).buffered = l) :
    bindOwner r s = (s.setLane i l, 0x00 :: bindFields i l) := by
  have free : (s.boundElsewhere i r.stream || ((some r.time).isSome && (s.lanes.get i).current == some r.stream)) = false :=
    Bool.eq_false_iff.mpr fun e => hfree ⟨r.stream, rfl, by simpa using e⟩
  simp only [bindOwner, readLane_of_num hi, readOpt_present hst, readOpt_present hti, hp, free, hm, hl]
  rfl

end Passed

/-! ## The immediate binding (R64) -/

/-- A frame of a stream that is released as bound no longer: `bound` is what was bound, `named` what is. -/
def unbinds (bound named : Option StreamId) (f : FrameRecord) : Bool := decide (bound = some f.stream) && decide (named ≠ some f.stream)

theorem bindNow_noSwitch {l : Lane} (h : l.switch = none) (named : Option StreamId) :
    l.bindNow named = { l.releaseWhere (unbinds l.current named) with current := named } := by
  have current : (fun f : FrameRecord => some f.stream == l.current && named != l.current) = unbinds l.current named := by
    funext f
    rw [Bool.eq_iff_iff]
    simp only [unbinds, Bool.and_eq_true, beq_iff_eq, bne_iff_ne, decide_eq_true_iff]
    exact ⟨fun h => ⟨h.1.symm, h.1 ▸ h.2⟩, fun h => ⟨h.1.symm, h.1 ▸ h.2⟩⟩
  simp only [Lane.bindNow, h, current]

/-- A pending switch is discarded, with its frames, before the rest of the binding (R64). -/
theorem bindNow_switch {l : Lane} {sw : Switch} (h : l.switch = some sw) (named : Option StreamId) :
    l.bindNow named =
      ({ l.releaseWhere (unbinds (some sw.stream) named) with switch := none } : Lane).bindNow named := by
  have pending : (fun f : FrameRecord => f.stream == sw.stream && named != some sw.stream) = unbinds (some sw.stream) named := by
    funext f
    rw [Bool.eq_iff_iff]
    simp only [unbinds, Bool.and_eq_true, beq_iff_eq, bne_iff_ne, decide_eq_true_iff, Option.some.injEq]
    exact ⟨fun h => ⟨h.1.symm, h.1 ▸ h.2⟩, fun h => ⟨h.1.symm, h.1 ▸ h.2⟩⟩
  have current : (l.releaseWhere (unbinds (some sw.stream) named)).current = l.current := by rw [(releaseWhere_released l _).frame]
  simp only [Lane.bindNow, h, pending, current]

theorem bindNow_eq (l : Lane) (named : Option StreamId) {m k : Lane}
    (hm : m = l.releaseWhere (unbinds (l.switch.map Switch.stream) named)) (hk : k = m.releaseWhere (unbinds l.current named)) :
    l.bindNow named = { l with
      current := named, switch := none, queue := k.queue, allocs := k.allocs, reclaimOffset := k.reclaimOffset, cursor := k.cursor } := by
  have frame := (releaseWhere_released l (unbinds (l.switch.map Switch.stream) named)).frame
  rw [← hm] at frame
  cases hsw : l.switch with
  | none =>
    have nothing : m = l := by
      rw [hm, hsw]
      exact releaseWhere_nothing l
    have kframe := (releaseWhere_released l (unbinds l.current named)).frame
    rw [nothing] at hk
    rw [← hk] at kframe
    rw [bindNow_noSwitch hsw, ← hk, kframe, hsw]
  | some sw =>
    have hm : m = l.releaseWhere (unbinds (some sw.stream) named) := by rw [hm, hsw]; rfl
    obtain ⟨n, hn⟩ : ∃ n, n = { m with switch := none } := ⟨_, rfl⟩
    have current : n.current = l.current := by rw [hn, frame]
    have released := releaseWhere_congr (l := m) (m := n) (by rw [hn]) (by rw [hn]) (by rw [hn]) (by rw [hn]) (by rw [hn])
      (unbinds l.current named)
    rw [← hk] at released
    rw [bindNow_switch hsw, ← hm, ← hn, bindNow_noSwitch (by rw [hn]), current, released, hn, frame]

theorem not_streamTaken_now {s : State} {i : LaneId} {named : Option StreamId}
    (hfree : ∀ st, named = some st → ∀ j, j ≠ i → (s.lanes.get j).current ≠ some st ∧
      ∀ sw, (s.lanes.get j).switch = some sw → sw.stream ≠ st) : ¬ s.streamTaken i named none := by
  rintro ⟨st, hst, h | h⟩
  · obtain ⟨j, hj, h⟩ := (boundElsewhere_iff s i st).mp h
    obtain ⟨current, pending⟩ := hfree st hst j hj
    rcases h with h | ⟨sw, h1, h2⟩
    · exact current h
    · exact pending sw h1 h2
  · exact Bool.false_ne_true h.1

/-- Settles O32: the binding by `bindNow_eq`, and each refusal by its check. -/
theorem lbindChecksAndBinds : Obligations.LbindChecksAndBinds := by
  refine ⟨?_, ?_⟩
  · intro tag r i named s hs hi ht hnamed hd hst hfree
    have on : (s.lanes.get i).isPlay = true := (isPlay_iff _).mpr ⟨by rcases hst with h | h <;> rw [h] <;> decide, hd⟩
    have read : readOpt r.streamP r.stream = some named := by
      rcases hnamed with ⟨h, rfl⟩ | ⟨h, rfl⟩
      · exact readOpt_absent h _
      · exact readOpt_present h _
    have owner := bindOwner_now hi on read (readOpt_absent ht _) (not_streamTaken_now hfree)
    rw [if_pos hst] at owner
    obtain ⟨m, hm⟩ : ∃ m, m = (s.lanes.get i).releaseWhere (unbinds ((s.lanes.get i).switch.map Switch.stream) named) := ⟨_, rfl⟩
    obtain ⟨k, hk⟩ : ∃ k, k = m.releaseWhere (unbinds (s.lanes.get i).current named) := ⟨_, rfl⟩
    have bound := bindNow_eq (s.lanes.get i) named hm hk
    rw [watermark_eq _ _ (by rw [bound, hd]), bound] at owner
    refine ⟨_, m, k, hm, hk, rfl, ?_, ?_⟩
    · dsimp only
      rw [hk, releaseWhere_queue, hm, releaseWhere_queue, List.filter_filter]
      refine List.filter_congr fun f _ => ?_
      rw [Bool.eq_iff_iff]
      simp only [unbinds, Bool.and_eq_true, Bool.not_eq_true', Bool.and_eq_false_iff, decide_eq_false_iff_not, Bool.or_eq_true,
        decide_eq_true_iff]
      tauto
    · refine (exec_served hs owner rfl rfl rfl).trans ?_
      rw [bindFields_eq hi (current := optField 2 put16 named) rfl (noSwitch_fields rfl)]
      cases named <;> rfl
  · intro tag r s refused hs hrefused
    have refuses : ∀ x, bindOwner r s = (s, [x]) → refused x := fun x h => (hrefused x).mpr (exec_served hs h rfl rfl rfl)
    refine ⟨fun h => refuses _ (bindOwner_unread h s), ?_⟩
    intro i l taken hi hl hread htaken
    subst hl
    obtain ⟨stream, time, hst, hti, named, taken_iff⟩ : ∃ stream time, readOpt r.streamP r.stream = some stream ∧
        readOpt r.timeP r.time = some time ∧ (stream = none → time = none) ∧ (s.streamTaken i stream time ↔ taken) := by
      rw [htaken]
      rcases hread with ⟨ht, hp | hp⟩ | ⟨ht, hp⟩
      · refine ⟨none, none, readOpt_absent hp _, readOpt_absent ht _, fun _ => rfl, ?_⟩
        simp [State.streamTaken, hp]
      · refine ⟨some r.stream, none, readOpt_present hp _, readOpt_absent ht _, fun h => (by cases h), ?_⟩
        simp [State.streamTaken, hp, ht, boundElsewhere_iff]
      · refine ⟨some r.stream, some r.time, readOpt_present hp _, readOpt_present ht _, fun h => (by cases h), ?_⟩
        simp [State.streamTaken, hp, ht, boundElsewhere_iff]
    have plays : (s.lanes.get i).state ≠ .off → (s.lanes.get i).config.direction = .play → (s.lanes.get i).isPlay = true :=
      fun h1 h2 => (isPlay_iff _).mpr ⟨h1, h2⟩
    refine ⟨fun h => refuses _ (bindOwner_notPlay hi hst hti named ?_), fun h1 h2 h => refuses _ ?_, fun h1 h2 h ht hs1 hs2 => refuses _ ?_⟩
    · refine Bool.eq_false_iff.mpr fun e => ?_
      obtain ⟨e1, e2⟩ := (isPlay_iff _).mp e
      rcases h with h | h
      · exact e1 h
      · rw [e2] at h
        cases h
    · exact bindOwner_taken hi hst hti (plays h1 h2) (taken_iff.mpr h)
    · have none_time : time = none := by
        rw [readOpt_absent ht] at hti
        exact (Option.some.inj hti).symm
      subst none_time
      rw [bindOwner_now hi (plays h1 h2) hst hti fun e => h (taken_iff.mp e), if_neg (not_or.mpr ⟨hs1, hs2⟩)]

/-! ## The pending switch (R65, R66) -/

/-- A pending switch is due at a content time not earlier than its time (R66). -/
theorem switchDue_iff {l : Lane} {sw : Switch} (h : l.switch = some sw) (content : Option Time) :
    l.switchDue content = true ↔ ∃ p, content = some p ∧ 0 ≤ (p - sw.time).toInt := by
  cases content with
  | none => simp [Lane.switchDue]
  | some p => simp [Lane.switchDue, h, notEarlier, sdiff]

/-- A commit releases the old current stream's QUEUED frames and binds the pending stream (R66). -/
theorem commit_eq {l : Lane} {sw : Switch} (h : l.switch = some sw) :
    l.commit = { l.releaseWhere (fun f => decide (f.status = .queued) && decide (l.current = some f.stream)) with
      current := some sw.stream, switch := none } := by
  have old : (fun f : FrameRecord => f.status == .queued && some f.stream == l.current) =
      fun f => decide (f.status = .queued) && decide (l.current = some f.stream) := by
    funext f
    rw [Bool.eq_iff_iff]
    simp only [Bool.and_eq_true, beq_iff_eq, decide_eq_true_iff]
    exact ⟨fun ⟨a, b⟩ => ⟨a, b.symm⟩, fun ⟨a, b⟩ => ⟨a, b.symm⟩⟩
  simp only [Lane.commit, h, old]

/-- Steps 1 and 2 (R65): what is released of the switch that was pending, by its stream. -/
theorem setSwitch_none {l : Lane} (h : l.switch = none) (sw : Switch) : l.setSwitch sw = { l with switch := some sw } := by
  simp only [Lane.setSwitch, h]

theorem setSwitch_pending {l : Lane} {old : Switch} (h : l.switch = some old) (sw : Switch) :
    l.setSwitch sw = { l.releaseWhere (fun f => decide (f.stream = old.stream) &&
        (decide (old.stream ≠ sw.stream) || decide ((f.time - sw.time).toInt < 0))) with switch := some sw } := by
  simp only [Lane.setSwitch, h]
  split
  · rename_i same
    have drops : (fun f : FrameRecord => f.stream == old.stream && earlier f.time sw.time) =
        fun f => decide (f.stream = old.stream) && (decide (old.stream ≠ sw.stream) || decide ((f.time - sw.time).toInt < 0)) := by
      funext f
      rw [decide_eq_false (not_not_intro same), Bool.false_or]
      rfl
    rw [drops]
  · rename_i other
    have drops : (fun f : FrameRecord => f.stream == old.stream) =
        fun f => decide (f.stream = old.stream) && (decide (old.stream ≠ sw.stream) || decide ((f.time - sw.time).toInt < 0)) := by
      funext f
      rw [decide_eq_true other, Bool.true_or, Bool.and_true]
      rfl
    rw [drops]

/-- Steps 3 and 4 (R65): the commit, or the release of the current stream's QUEUED frames at or after the switch. -/
theorem settleSwitch_eq {m : Lane} {sw : Switch} (h : m.switch = some sw) {late : Option Time} {due : Bool}
    (hdue : due = true ↔ ∃ p, late = some p ∧ 0 ≤ (p - sw.time).toInt) :
    m.settleSwitch late sw = { m.releaseWhere (fun f => decide (f.status = .queued) && decide (m.current = some f.stream) &&
        (due || decide (0 ≤ (f.time - sw.time).toInt))) with
      current := if due then some sw.stream else m.current
      switch := if due then none else m.switch } := by
  have verdict : m.switchDue late = due := by rw [Bool.eq_iff_iff, switchDue_iff h, hdue]
  unfold Lane.settleSwitch
  rw [verdict]
  cases due with
  | true =>
    rw [if_pos rfl, commit_eq h]
    simp
  | false =>
    have old : (fun f : FrameRecord => f.status == .queued && some f.stream == m.current && notEarlier f.time sw.time) =
        fun f => decide (f.status = .queued) && decide (m.current = some f.stream) &&
          (false || decide (0 ≤ (f.time - sw.time).toInt)) := by
      funext f
      rw [Bool.eq_iff_iff]
      simp only [Bool.and_eq_true, beq_iff_eq, decide_eq_true_iff, Bool.false_or, notEarlier, sdiff]
      exact ⟨fun ⟨⟨a, b⟩, c⟩ => ⟨⟨a, b.symm⟩, of_decide_eq_true c⟩, fun ⟨⟨a, b⟩, c⟩ => ⟨⟨a, b.symm⟩, decide_eq_true c⟩⟩
    rw [if_neg Bool.false_ne_true, old]
    exact (releaseWhere_released m _).frame.trans (by rw [(releaseWhere_released m _).frame]; rfl)

/-- Settles O33: steps 1 to 4 of the request, and its watermark check. -/
theorem lbindSetsASwitch : Obligations.LbindSetsASwitch := by
  intro tag r i s due l m k hs hi hp ht hd on hcur hfree hm hdue hk hl
  have free : ¬ s.streamTaken i (some r.stream) (some r.time) := by
    rintro ⟨st, hst, h⟩
    cases hst
    rcases h with h | h
    · obtain ⟨j, hj, h⟩ := (boundElsewhere_iff s i r.stream).mp h
      obtain ⟨current, pending⟩ := hfree j hj
      rcases h with h | ⟨sw, h1, h2⟩
      · exact current h
      · exact pending sw h1 h2
    · exact hcur h.2
  have set : (s.lanes.get i).setSwitch { stream := r.stream, time := r.time } = m := by
    cases hsw : (s.lanes.get i).switch with
    | none =>
      rw [hsw] at hm
      rw [setSwitch_none hsw, hm]
      exact congrArg (fun n : Lane => { n with switch := some { stream := r.stream, time := r.time } })
        (releaseWhere_nothing (s.lanes.get i)).symm
    | some old =>
      rw [hsw] at hm
      exact (setSwitch_pending hsw _).trans hm.symm
  have pending : m.switch = some { stream := r.stream, time := r.time } := by rw [hm]
  have settled := settleSwitch_eq pending hdue
  rw [← hk] at settled
  have mframe : m.config = (s.lanes.get i).config ∧ m.flags = (s.lanes.get i).flags := by
    rw [hm, (releaseWhere_released (s.lanes.get i) _).frame]
    exact ⟨rfl, rfl⟩
  have kframe : k.config = (s.lanes.get i).config ∧ k.flags = (s.lanes.get i).flags := by
    rw [hk, (releaseWhere_released m _).frame]
    exact mframe
  have lane : (m.settleSwitch (s.latePoint? m) { stream := r.stream, time := r.time }).watermark (s.lanes.get i).buffered = l := by
    rw [settled, watermark_eq _ _ (by dsimp only; rw [kframe.1, hd]), hl]
    dsimp only
    rw [kframe.1, kframe.2]
    rfl
  have owner := bindOwner_switch hi ((isPlay_iff _).mpr ⟨on, hd⟩) hp ht free set lane
  refine (exec_served hs owner rfl rfl rfl).trans ?_
  rw [bindFields_eq hi (l := l) rfl rfl]
  cases l.current <;> cases l.switch <;> rfl

end Sys2Proof.Machine

/-! LFRAME (R66, R72 to R78): its checks in their order, the lane's late point, the switch that it commits, and the admission. -/

namespace Sys2Proof.Machine

/-! ## Checks 1 to 4 (R73) -/

theorem readWidth_inv {b : Byte} {w : Width} (h : readWidth b = some w) : b = w.code := by
  unfold readWidth at h
  split at h
  · rename_i e
    cases h
    exact e
  · split at h
    · rename_i e
      cases h
      exact e
    · cases h

theorem frameBadLength_iff (r : LframeReq) : frameBadLength r = false ↔ ((r.width = 16 ∨ r.width = 24) →
    r.payload.length = r.samples.toNat * r.channels.toNat * (if r.width = 16 then 2 else 3)) := by
  cases h : readWidth r.width with
  | none =>
    obtain ⟨not16, not24⟩ := (readWidth_none _).mp h
    refine ⟨fun _ width => absurd width (not_or.mpr ⟨not16, not24⟩), fun _ => ?_⟩
    simp only [frameBadLength, frameImplied, h]
    rfl
  | some w =>
    have code := readWidth_inv h
    simp only [frameBadLength, frameImplied, h, Option.map_some]
    cases w <;> simp [code, Width.code]

theorem frameBadRange_iff (r : LframeReq) : frameBadRange r = false ↔ ((r.width = 16 ∨ r.width = 24) ∧
    (r.channels = 1 ∨ r.channels = 2) ∧ 1 ≤ r.samples.toNat ∧ r.samples.toNat ≤ 1024 ∧ r.marks &&& 0xFC = 0 ∧
    (r.tagP = 0 ∨ r.tagP = 1)) := by
  have none_samples : r.samples = 0 ↔ r.samples.toNat = 0 := by
    rw [← BitVec.toNat_inj]
    rfl
  have width : (readWidth r.width).isNone = false ↔ r.width = 16 ∨ r.width = 24 := by
    rw [Option.isNone_eq_false_iff, Option.isSome_iff_ne_none, ne_eq, readWidth_none, not_and_or, not_not, not_not]
  have tag : (readOpt r.tagP r.cueTag).isNone = false ↔ r.tagP = 0 ∨ r.tagP = 1 := by
    by_cases h0 : r.tagP = 0
    · exact ⟨fun _ => .inl h0, fun _ => by rw [readOpt_absent h0]; rfl⟩
    · by_cases h1 : r.tagP = 1
      · exact ⟨fun _ => .inr h1, fun _ => by rw [readOpt_present h1]; rfl⟩
      · have unknown : readOpt r.tagP r.cueTag = none := (if_neg h0).trans (if_neg h1)
        rw [unknown]
        exact ⟨nofun, fun h => absurd h (not_or.mpr ⟨h0, h1⟩)⟩
  have channels : (r.channels != 1 && r.channels != 2) = false ↔ r.channels = 1 ∨ r.channels = 2 := by
    rw [Bool.and_eq_false_iff, bne_eq_false_iff_eq, bne_eq_false_iff_eq]
  have few : (r.samples == 0) = false ↔ 1 ≤ r.samples.toNat := by
    rw [beq_eq_false_iff_ne, ne_eq, none_samples]
    omega
  have many : decide (1024 < r.samples.toNat) = false ↔ r.samples.toNat ≤ 1024 := by
    rw [decide_eq_false_iff_not]
    omega
  have marks : ((r.marks &&& 0xFC) != 0) = false ↔ r.marks &&& 0xFC = 0 := bne_eq_false_iff_eq
  simp only [frameBadRange, Bool.or_eq_false_iff, width, tag, channels, few, many, marks]
  exact ⟨fun ⟨⟨⟨⟨⟨few, many⟩, channels⟩, width⟩, marks⟩, tag⟩ => ⟨width, channels, few, many, marks, tag⟩,
    fun ⟨width, channels, few, many, marks, tag⟩ => ⟨⟨⟨⟨⟨few, many⟩, channels⟩, width⟩, marks⟩, tag⟩⟩

theorem find?_unique {α : Type} {p : α → Bool} {as : List α} {a : α} (ha : a ∈ as) (hp : p a = true)
    (only : ∀ b, p b = true → b = a) : as.find? p = some a := by
  cases h : as.find? p with
  | none => exact absurd hp (List.find?_eq_none.mp h a ha)
  | some b => rw [only b (List.find?_some h)]

/-- The lane of a stream that is bound on one enabled PLAY lane alone (R62). -/
theorem laneOfStream_eq {s : State} {i : LaneId} {st : StreamId} (hp : (s.lanes.get i).isPlay = true)
    (hb : (s.lanes.get i).bound st = true)
    (only : ∀ j, j ≠ i → (s.lanes.get j).isPlay = true → (s.lanes.get j).bound st = false) : s.laneOfStream st = some i := by
  refine find?_unique (LaneId.mem_list i) (by rw [hp, hb]; rfl) fun j hj => by_contra fun other => ?_
  obtain ⟨plays, bound⟩ := Bool.and_eq_true_iff.mp hj
  rw [only j other plays] at bound
  cases bound

theorem laneOfStream_none {s : State} {st : StreamId}
    (h : ∀ i, (s.lanes.get i).isPlay = true → (s.lanes.get i).bound st = false) : s.laneOfStream st = none := by
  refine List.find?_eq_none.mpr fun i _ e => ?_
  obtain ⟨plays, bound⟩ := Bool.and_eq_true_iff.mp e
  rw [h i plays] at bound
  cases bound

theorem frameOwner_badLength {r : LframeReq} (h : frameBadLength r = true) (s : State) : frameOwner r s = (s, [0x10]) :=
  if_pos h

section
variable {r : LframeReq} (hl : frameBadLength r = false)
include hl

theorem frameOwner_badRange (h : frameBadRange r = true) (s : State) : frameOwner r s = (s, [0x12]) := by
  unfold frameOwner
  rw [if_neg (Bool.eq_false_iff.mp hl)]
  exact if_pos h

variable (hf : frameBadRange r = false)
include hf

theorem frameOwner_noLane {s : State} (h : s.laneOfStream r.stream = none) : frameOwner r s = (s, [0x30]) := by
  unfold frameOwner
  rw [if_neg (Bool.eq_false_iff.mp hl), if_neg (Bool.eq_false_iff.mp hf), h]
  rfl

variable {s : State} {i : LaneId} (hi : s.laneOfStream r.stream = some i)
include hi

theorem frameOwner_channels (h : r.channels.toNat ≠ (s.lanes.get i).config.channels) : frameOwner r s = (s, [0x12]) := by
  unfold frameOwner
  rw [if_neg (Bool.eq_false_iff.mp hl), if_neg (Bool.eq_false_iff.mp hf), hi]
  exact if_pos h

variable (hc : r.channels.toNat = (s.lanes.get i).config.channels) {l : Lane} (hcommit : s.commitForFrame (s.lanes.get i) = l)
include hc hcommit

theorem frameOwner_refused {code : ResultCode} (h : s.admission l r = some code) :
    frameOwner r s = (s.setLane i l, [code.code]) := by
  unfold frameOwner
  rw [if_neg (Bool.eq_false_iff.mp hl), if_neg (Bool.eq_false_iff.mp hf), hi]
  refine (if_neg (not_not_intro hc)).trans ?_
  dsimp only
  rw [hcommit, h]
  rfl

theorem frameOwner_admitted (h : s.admission l r = none) :
    frameOwner r s = ({ s.setLane i (l.takeFrame r) with
      store := writeSamples l.config l.writeOffset (frameSamples r) s.store }, 0x00 :: frameFields i (l.takeFrame r)) := by
  unfold frameOwner
  rw [if_neg (Bool.eq_false_iff.mp hl), if_neg (Bool.eq_false_iff.mp hf), hi]
  refine (if_neg (not_not_intro hc)).trans ?_
  dsimp only
  rw [hcommit, h]
  rfl

end

/-! ## The commit (R66) and checks 5 to 12 (R73) -/

theorem commitForFrame_stays {s : State} {l : Lane} (h : l.switchDue (s.latePoint? l) = false) : s.commitForFrame l = l :=
  if_neg (Bool.eq_false_iff.mp h)

theorem commitForFrame_commits {s : State} {l m : Lane} {sw : Switch} (hd : l.config.direction = .play) (hsw : l.switch = some sw)
    (h : l.switchDue (s.latePoint? l) = true)
    (hm : m = l.releaseWhere (fun f => decide (f.status = .queued) && decide (l.current = some f.stream))) :
    s.commitForFrame l = { m with
      current := some sw.stream
      switch := none
      flags := l.flags ||| (if l.config.low ≤ l.buffered ∧ m.buffered < l.config.low then 0x10 else 0)
        ||| (if l.buffered ≤ l.config.high ∧ l.config.high < m.buffered then 0x08 else 0) } := by
  have frame : m.config = l.config ∧ m.flags = l.flags := by
    rw [hm, (releaseWhere_released l _).frame]
    exact ⟨rfl, rfl⟩
  refine (if_pos h).trans ?_
  rw [commit_eq hsw, ← hm, watermark_eq _ _ (by dsimp only; rw [frame.1, hd])]
  dsimp only
  rw [frame.1, frame.2]
  rfl

/-- A lane with no switch, or one that its late point does not make due, is not committed. -/
theorem switchDue_stays {l : Lane} {late : Option Time}
    (h : ∀ sw p, l.switch = some sw → late = some p → (p - sw.time).toInt < 0) : l.switchDue late = false := by
  cases hsw : l.switch with
  | none => simp [Lane.switchDue, hsw]
  | some sw =>
    refine Bool.eq_false_iff.mpr fun due => ?_
    obtain ⟨p, hp, notEarlier⟩ := (switchDue_iff hsw late).mp due
    exact absurd notEarlier (Int.not_le.mpr (h sw p hsw hp))

/-- The switch window (R74). -/
theorem inWindow_iff (l : Lane) (st : StreamId) (pts : Time) :
    l.inWindow st pts = true ↔ (l.switch = none ∧ l.current = some st) ∨
      ∃ sw, l.switch = some sw ∧ ((sw.stream = st ∧ 0 ≤ (pts - sw.time).toInt) ∨
        (sw.stream ≠ st ∧ l.current = some st ∧ (pts - sw.time).toInt < 0)) := by
  unfold Lane.inWindow
  cases l.switch with
  | none => simp
  | some sw => by_cases same : sw.stream = st <;> simp [same, notEarlier, earlier, sdiff]

theorem frameEndTime_eq (r : LframeReq) : frameEndTime r = r.pts + BitVec.ofNat 48 (512 * r.samples.toNat) := by
  have span : sampleSpan r.samples.toNat = ((512 * r.samples.toNat : Nat) : Int) := by simp [sampleSpan]
  rw [frameEndTime, addTicks, span, BitVec.ofInt_natCast]

theorem admission_eq (s : State) (l : Lane) (r : LframeReq) :
    s.admission l r =
      if !l.inWindow r.stream r.pts then some .eSwitch
      else if r.epoch ≠ s.tracker.epoch ∧ some r.epoch ≠ s.tracker.candidate then some .eEpoch
      else if (s.latePoint? l).elim false (fun p => !later (frameEndTime r) p) then some .eLate
      else if (s.tracker.house? s.count).elim false (fun h => decide ((l.config.leadLimit : Int) < sdiff r.pts h)) then some .eEarly
      else if l.queue.any (fun f => f.stream == r.stream && f.seq == r.seq) then some .eDup
      else if l.queue.any (FrameRecord.forbids r.pts) then some .eOrder
      else if l.config.quota ≤ l.queue.length then some .eQuota
      else if l.free < frameWords r then some .eRoom
      else none := by
  unfold State.admission
  cases s.latePoint? l <;> cases s.tracker.house? s.count <;> rfl

/-- Checks 5 to 12, each by what it tests: the code of the first that fails, and none where all pass. -/
theorem admission_cases {s : State} {l : Lane} {r : LframeReq} {window known late early twice misplaced full crowded : Prop}
    (samples : 1 ≤ r.samples.toNat) (channels : r.channels = 1 ∨ r.channels = 2)
    (hwindow : window ↔ (l.switch = none ∧ l.current = some r.stream) ∨
      ∃ sw, l.switch = some sw ∧ ((sw.stream = r.stream ∧ 0 ≤ (r.pts - sw.time).toInt) ∨
        (sw.stream ≠ r.stream ∧ l.current = some r.stream ∧ (r.pts - sw.time).toInt < 0)))
    (hknown : known ↔ r.epoch = s.tracker.epoch ∨ s.tracker.candidate = some r.epoch)
    (hlate : late ↔ ∃ p, s.latePoint? l = some p ∧ (r.pts + BitVec.ofNat 48 (512 * r.samples.toNat) - p).toInt ≤ 0)
    (hearly : early ↔ ∃ h, s.tracker.house? s.count = some h ∧ (l.config.leadLimit : Int) < (r.pts - h).toInt)
    (htwice : twice ↔ ∃ f ∈ l.queue, f.stream = r.stream ∧ f.seq = r.seq)
    (hmisplaced : misplaced ↔ ∃ f ∈ l.queue, f.time = r.pts ∨ (f.status = .playing ∧ (r.pts - f.time).toInt < 0))
    (hfull : full ↔ l.config.quota ≤ l.queue.length)
    (hcrowded : crowded ↔ l.config.regionSize < l.fill + r.samples.toNat * r.channels.toNat) :
    (∀ x : Byte,
      ((¬ window ∧ x = 0x32) ∨ (window ∧ ((¬ known ∧ x = 0x33) ∨ (known ∧ ((late ∧ x = 0x34) ∨
        (¬ late ∧ ((early ∧ x = 0x35) ∨ (¬ early ∧ ((twice ∧ x = 0x36) ∨ (¬ twice ∧ ((misplaced ∧ x = 0x37) ∨
        (¬ misplaced ∧ ((full ∧ x = 0x38) ∨ (¬ full ∧ crowded ∧ x = 0x39)))))))))))))) →
      ∃ code, s.admission l r = some code ∧ code.code = x) ∧
    (window → known → ¬ late → ¬ early → ¬ twice → ¬ misplaced → ¬ full → ¬ crowded → s.admission l r = none) := by
  have c1 : (!l.inWindow r.stream r.pts) = true ↔ ¬ window := by
    rw [Bool.not_eq_true', Bool.eq_false_iff, ne_eq, inWindow_iff, hwindow]
  have c2 : (r.epoch ≠ s.tracker.epoch ∧ some r.epoch ≠ s.tracker.candidate) ↔ ¬ known := by
    rw [hknown, not_or, ne_eq, ne_eq, eq_comm (a := some r.epoch)]
  have c3 : (s.latePoint? l).elim false (fun p => !later (frameEndTime r) p) = true ↔ late := by
    rw [hlate]
    cases s.latePoint? l with
    | none => simp
    | some p => simp [later, sdiff, frameEndTime_eq]
  have c4 : (s.tracker.house? s.count).elim false (fun h => decide ((l.config.leadLimit : Int) < sdiff r.pts h)) = true ↔ early := by
    rw [hearly]
    cases s.tracker.house? s.count with
    | none => simp
    | some h => simp [sdiff]
  have c5 : l.queue.any (fun f => f.stream == r.stream && f.seq == r.seq) = true ↔ twice := by
    rw [htwice, List.any_eq_true]
    simp
  have c6 : l.queue.any (FrameRecord.forbids r.pts) = true ↔ misplaced := by
    rw [hmisplaced, List.any_eq_true]
    simp [FrameRecord.forbids, earlier, sdiff]
  have c8 : l.free < frameWords r ↔ crowded := by
    have words : 1 ≤ r.samples.toNat * r.channels.toNat := by
      refine Nat.mul_pos samples ?_
      rcases channels with h | h <;> rw [h] <;> decide
    rw [hcrowded, Lane.free, frameWords]
    omega
  rw [admission_eq]
  constructor
  · intro x h
    rcases h with ⟨h, rfl⟩ | ⟨h, rest⟩
    · exact ⟨_, if_pos (c1.mpr h), rfl⟩
    rw [if_neg fun e => c1.mp e h]
    rcases rest with ⟨h, rfl⟩ | ⟨h, rest⟩
    · exact ⟨_, if_pos (c2.mpr h), rfl⟩
    rw [if_neg fun e => c2.mp e h]
    rcases rest with ⟨h, rfl⟩ | ⟨h, rest⟩
    · exact ⟨_, if_pos (c3.mpr h), rfl⟩
    rw [if_neg fun e => h (c3.mp e)]
    rcases rest with ⟨h, rfl⟩ | ⟨h, rest⟩
    · exact ⟨_, if_pos (c4.mpr h), rfl⟩
    rw [if_neg fun e => h (c4.mp e)]
    rcases rest with ⟨h, rfl⟩ | ⟨h, rest⟩
    · exact ⟨_, if_pos (c5.mpr h), rfl⟩
    rw [if_neg fun e => h (c5.mp e)]
    rcases rest with ⟨h, rfl⟩ | ⟨h, rest⟩
    · exact ⟨_, if_pos (c6.mpr h), rfl⟩
    rw [if_neg fun e => h (c6.mp e)]
    rcases rest with ⟨h, rfl⟩ | ⟨h, crowd, rfl⟩
    · exact ⟨_, if_pos (hfull.mp h), rfl⟩
    rw [if_neg fun e => h (hfull.mpr e)]
    exact ⟨_, if_pos (c8.mpr crowd), rfl⟩
  · intro h1 h2 h3 h4 h5 h6 h7 h8
    rw [if_neg fun e => c1.mp e h1, if_neg fun e => c2.mp e h2, if_neg fun e => h3 (c3.mp e), if_neg fun e => h4 (c4.mp e),
      if_neg fun e => h5 (c5.mp e), if_neg fun e => h6 (c6.mp e), if_neg fun e => h7 (hfull.mpr e), if_neg fun e => h8 (c8.mp e)]

/-! ## The admission (R53, R55, R72, R76, R77) -/

/-- Two words of a region at offsets less than its size apart are different words of the store. -/
theorem wordAt_ne (c : LaneConfig) {o n m : Nat} (hn : n < c.regionSize) (hm : m < c.regionSize) (h : n ≠ m) :
    c.wordAt (o + n) ≠ c.wordAt (o + m) := by
  intro e
  have same : (o + n) % c.regionSize = (o + m) % c.regionSize := Nat.add_left_cancel e
  have close : n % c.regionSize = m % c.regionSize := Nat.ModEq.add_left_cancel' o same
  rw [Nat.mod_eq_of_lt hn, Nat.mod_eq_of_lt hm] at close
  exact h close

/-- Samples that fit the region stand in their words, and every other word stays (R53, R55). -/
theorem writeSamples_read (c : LaneConfig) (xs : List Int) (o : Nat) {m : Memory} (hm : m.wf = true) (fits : xs.length ≤ c.regionSize) :
    (∀ n (h : n < xs.length), (writeSamples c o xs m).read (c.wordAt (o + n)) = sampleWord xs[n]) ∧
      ∀ a, (∀ n, n < xs.length → a ≠ c.wordAt (o + n)) → (writeSamples c o xs m).read a = m.read a := by
  induction xs generalizing o m with
  | nil => exact ⟨fun n h => absurd h (Nat.not_lt_zero n), fun _ _ => rfl⟩
  | cons x rest ih =>
    rw [List.length_cons] at fits
    obtain ⟨written, kept⟩ := ih (o + 1) (Memory.wf_write (c.wordAt o) (sampleWord x) hm) (Nat.le_of_succ_le fits)
    refine ⟨fun n h => ?_, fun a other => ?_⟩
    · cases n with
      | zero =>
        refine (kept _ fun n hn => ?_).trans (Memory.read_write_same _ _ hm)
        rw [Nat.add_assoc, Nat.add_comm 1 n]
        exact wordAt_ne c (c.regionSize_pos) (by omega) (by omega)
      | succ n =>
        have := written n (by simpa using h)
        rwa [Nat.add_assoc, Nat.add_comm 1 n] at this
    · refine (kept a fun n hn => ?_).trans (Memory.read_write_other _ hm (other 0 (by simp)))
      rw [Nat.add_assoc, Nat.add_comm 1 n]
      exact other (n + 1) (by simpa using hn)

theorem expand16_eq (n : Nat) (p : List Byte) (h : p.length = n * 2) :
    expand16 p = (List.range n).map fun k => (p.getD (2 * k) 0 ++ p.getD (2 * k + 1) 0).toInt * 256 := by
  induction n generalizing p with
  | zero =>
    rw [List.length_eq_zero_iff.mp (h.trans (Nat.zero_mul 2))]
    rfl
  | succ n ih =>
    match p, h with
    | [], h => simp at h
    | [_], h => simp at h; omega
    | a :: b :: rest, h =>
      have len : rest.length = n * 2 := by simp at h; omega
      rw [expand16, ih rest len, List.range_succ_eq_map, List.map_cons, List.map_map]
      refine congrArg₂ _ rfl (List.map_congr_left fun k _ => ?_)
      simp [Nat.mul_add]

theorem expand24_eq (n : Nat) (p : List Byte) (h : p.length = n * 3) :
    expand24 p = (List.range n).map fun k => (p.getD (3 * k) 0 ++ (p.getD (3 * k + 1) 0 ++ p.getD (3 * k + 2) 0)).toInt := by
  induction n generalizing p with
  | zero =>
    rw [List.length_eq_zero_iff.mp (h.trans (Nat.zero_mul 3))]
    rfl
  | succ n ih =>
    match p, h with
    | [], h => simp at h
    | [_], h => simp at h; omega
    | [_, _], h => simp at h; omega
    | a :: b :: c :: rest, h =>
      have len : rest.length = n * 3 := by simp at h; omega
      rw [expand24, ih rest len, List.range_succ_eq_map, List.map_cons, List.map_map]
      refine congrArg₂ _ rfl (List.map_congr_left fun k _ => ?_)
      simp [Nat.mul_add]

/-- The samples of a payload of the length its fields give (R77). -/
theorem frameSamples_eq {r : LframeReq} {words : Nat} (width : r.width = 16 ∨ r.width = 24)
    (h : r.payload.length = words * (if r.width = 16 then 2 else 3)) :
    frameSamples r = (List.range words).map fun n => if r.width = 16 then
        (r.payload.getD (2 * n) 0 ++ r.payload.getD (2 * n + 1) 0).toInt * 256
      else (r.payload.getD (3 * n) 0 ++ (r.payload.getD (3 * n + 1) 0 ++ r.payload.getD (3 * n + 2) 0)).toInt := by
  rcases width with w | w
  · rw [w] at h ⊢
    simp only [frameSamples, readWidth, w, if_true] at h ⊢
    exact expand16_eq words r.payload h
  · rw [w] at h ⊢
    simp only [frameSamples, readWidth, w] at h ⊢
    exact expand24_eq words r.payload h

/-- A record is inserted behind the last one whose pts is earlier (R72). -/
theorem insertByTime_split (f : FrameRecord) (q : List FrameRecord) :
    ∃ before after, insertByTime f q = before ++ f :: after ∧ q = before ++ after ∧
      (∀ g, before.getLast? = some g → (g.time - f.time).toInt < 0) ∧ ∀ g ∈ after, 0 ≤ (g.time - f.time).toInt := by
  induction q with
  | nil => exact ⟨[], [], rfl, rfl, nofun, nofun⟩
  | cons g rest ih =>
    obtain ⟨before, after, inserted, split, last, behind⟩ := ih
    by_cases some_earlier : (g :: rest).any (fun r => earlier r.time f.time) = true
    · refine ⟨g :: before, after, ?_, by rw [split]; rfl, fun h hh => ?_, behind⟩
      · rw [insertByTime, if_pos some_earlier, inserted]
        rfl
      · cases hb : before with
        | cons b bs =>
          rw [hb, List.getLast?_cons_cons, ← hb] at hh
          exact last h hh
        | nil =>
          rw [hb] at hh
          obtain rfl : g = h := by simpa using hh
          obtain ⟨x, hx, early⟩ := List.any_eq_true.mp some_earlier
          have early : (x.time - f.time).toInt < 0 := of_decide_eq_true early
          rcases List.mem_cons.mp hx with rfl | hx
          · exact early
          · rw [split, hb] at hx
            exact absurd early (Int.not_lt.mpr (behind x hx))
    · refine ⟨[], g :: rest, ?_, rfl, nofun, fun h hh => Int.not_lt.mp fun early => some_earlier ?_⟩
      · rw [insertByTime, if_neg some_earlier]
        rfl
      · exact List.any_eq_true.mpr ⟨h, hh, decide_eq_true early⟩

theorem frameRecord_tag {r : LframeReq} (h : r.tagP = 0 ∨ r.tagP = 1) :
    (readOpt r.tagP r.cueTag).getD none = if r.tagP = 0 then none else some r.cueTag := by
  rcases h with h | h
  · rw [readOpt_absent h, if_pos h]
    rfl
  · rw [readOpt_present h, if_neg (by rw [h]; decide)]
    rfl

/-! ## The late point (R75, R78, R109) -/

theorem nextBoundary_eq (s : State) :
    s.nextBoundary = BitVec.ofNat 48 (32768 * (s.count.toNat / 32768 + (if s.boundaryDue then 0 else 1))) := by
  have index : (blockIndex s.count).toNat = s.count.toNat / 32768 := by
    have := s.count.isLt
    simp [blockIndex, BitVec.extractLsb'_toNat, Nat.shiftRight_eq_div_pow]
    omega
  have boundary : ∀ k : BlockIndex, (boundaryTime k).toNat = 32768 * k.toNat := by
    intro k
    refine (BitVec.toNat_append k (0 : BitVec 15)).trans ?_
    rw [Nat.shiftLeft_eq, Nat.mul_comm]
    exact Nat.or_zero _
  refine BitVec.eq_of_toNat_eq ?_
  have := s.count.isLt
  unfold State.nextBoundary
  split <;> rw [boundary, BitVec.toNat_ofNat]
  · rw [index]
    omega
  · rw [BitVec.toNat_add, index]
    simp
    omega

theorem latePoint?_unlocked {s : State} (h : s.tracker.state = .unlocked) (l : Lane) : s.latePoint? l = none := by
  simp [State.latePoint?, State.emissionHouse?, Tracker.house?, h]

theorem target_eq (c : LaneConfig) (house : Time) : c.target house = house - BitVec.ofInt 48 c.roomOffset := by
  rw [LaneConfig.target, addTicks, BitVec.ofInt_neg, BitVec.sub_eq_add_neg]

theorem latePoint?_eq {s : State} {house : Time}
    (h : s.tracker.house? (s.nextBoundary + BitVec.ofNat 48 (33280 + s.ports.spa.latency)) = some house) (l : Lane) :
    s.latePoint? l = some (l.latePoint (house - BitVec.ofInt 48 l.config.roomOffset)) := by
  rw [State.latePoint?, State.emissionHouse?, addTicks, BitVec.ofInt_natCast, ← target_eq]
  exact congrArg (Option.map _) h

theorem cursorTime_eq (f : FrameRecord) (c : Cursor) :
    cursorTime f c = f.time + BitVec.ofNat 48 (512 * c.index + c.frac / 2 ^ 15) := by
  have span : sampleSpan c.index + ((c.frac / 2 ^ 15 : Nat) : Int) = ((512 * c.index + c.frac / 2 ^ 15 : Nat) : Int) := by
    simp [sampleSpan]
  rw [cursorTime, addTicks, span, BitVec.ofInt_natCast]

/-! ## The obligations -/

/-- Settles O34: the commit at a boundary, and the switch window before an LFRAME. -/
theorem switchCommitsAndWindow : Obligations.SwitchCommitsAndWindow := by
  refine ⟨fun env l m sw hd on ha hsw hm => ?_,
    fun tag r i s sw due l m hs width channels few many len marks tagP hp bound hsw only hch hdue hm hl hwin => ?_⟩
  · have commits : l.commit = m := (commit_eq hsw).trans hm.symm
    obtain ⟨config, state, actions, flags⟩ : m.config = l.config ∧ m.state = l.state ∧ m.actions = [] ∧ m.flags = l.flags := by
      rw [hm, (releaseWhere_released l _).frame]
      exact ⟨rfl, rfl, ha, rfl⟩
    have lplays : l.isPlay = true := (isPlay_iff l).mpr ⟨on, hd⟩
    have mplays : m.isPlay = true := (isPlay_iff m).mpr ⟨by rwa [state], by rwa [config]⟩
    have resting : ∀ n : Lane, (n.state = .stopped ∨ n.state = .drained) → (n.workState env).1 = n := by
      rintro n (h | h) <;> rw [Lane.workState, h]
    refine ⟨fun p hp due => ?_, fun rest early => ?_⟩
    · have lwork := boundaryWork_played env (cueStep_none env l ha) lplays
      rw [if_pos ((switchDue_iff hsw _).mpr ⟨p, hp, due⟩), commits] at lwork
      have mwork := boundaryWork_state env m actions mplays (switchDue_stays fun _ _ h => by rw [hm] at h; cases h)
      refine ⟨⟨(m.workState env).1, by rw [mwork], by rw [lwork]⟩, by rw [lwork, mwork], fun rest => ?_⟩
      rw [lwork, resting m (by rwa [state])]
      dsimp only
      rw [watermark_eq _ _ (by rw [config, hd]), config, flags]
    · rw [boundaryWork_state env l ha lplays (switchDue_stays fun _ p h hp => by cases hsw.symm.trans h; exact early p hp)]
      dsimp only
      rw [resting l rest, watermark_same l _ rfl]
  · have hd : (s.lanes.get i).config.direction = .play := ((isPlay_iff _).mp hp).2
    have hb : (s.lanes.get i).bound r.stream = true := by simpa [Lane.bound, hsw] using bound
    have committed : s.commitForFrame (s.lanes.get i) = l := by
      rw [hl]
      cases due with
      | true => exact commitForFrame_commits hd hsw ((switchDue_iff hsw _).mpr (hdue.mp rfl)) hm
      | false => exact commitForFrame_stays (Bool.eq_false_iff.mpr fun e => Bool.false_ne_true (hdue.mpr ((switchDue_iff hsw _).mp e)))
    have outside : ¬ l.inWindow r.stream r.pts = true := by
      rw [inWindow_iff, hl]
      rcases hwin with ⟨rfl, other⟩ | ⟨rfl, same, early⟩ | ⟨rfl, other, late⟩
      · simp [other]
      · simp [hsw, same, early, -BitVec.toInt_sub]
      · simp [hsw, other, late, -BitVec.toInt_sub]
    have refused : s.admission l r = some .eSwitch := by
      rw [admission_eq]
      exact if_pos (by rw [Bool.not_eq_true', Bool.eq_false_iff]; exact outside)
    exact exec_served hs (frameOwner_refused ((frameBadLength_iff r).mpr fun _ => len)
      ((frameBadRange_iff r).mpr ⟨width, channels, few, many, marks, tagP⟩) (laneOfStream_eq hp hb only) hch committed refused)
      rfl rfl rfl

/-- The admitted frame (R53, R55, R60, R72, R76, R77): its record, its allocation and its words. -/
theorem takeFrame_writes {l : Lane} {r : LframeReq} {m : Memory} {words : Nat} (hd : l.config.direction = .play)
    (hw : words = r.samples.toNat * r.channels.toNat) (width : r.width = 16 ∨ r.width = 24)
    (len : r.payload.length = words * (if r.width = 16 then 2 else 3)) (tagP : r.tagP = 0 ∨ r.tagP = 1) (hm : m.wf = true)
    (room : words ≤ l.config.regionSize) :
    ∃ before after, (l.takeFrame r).queue = before ++
        { status := .queued, stream := r.stream, seq := r.seq, epoch := r.epoch, pts := some r.pts,
          samples := r.samples.toNat, channels := r.channels.toNat, offset := l.writeOffset, disc := r.marks.getLsbD 0,
          endMark := r.marks.getLsbD 1, tag := if r.tagP = 0 then none else some r.cueTag } :: after ∧
      l.queue = before ++ after ∧ (∀ f, before.getLast? = some f → (f.time - r.pts).toInt < 0) ∧
      (∀ f ∈ after, 0 ≤ (f.time - r.pts).toInt) ∧
      l.takeFrame r = { l with
        writeOffset := (l.writeOffset + words) % l.config.regionSize
        allocs := l.allocs ++ [{ start := l.writeOffset, len := words, released := false }]
        queue := (l.takeFrame r).queue
        flags := l.flags ||| (if l.config.low ≤ l.buffered ∧ (l.takeFrame r).buffered < l.config.low then 0x10 else 0)
          ||| (if l.buffered ≤ l.config.high ∧ l.config.high < (l.takeFrame r).buffered then 0x08 else 0) } ∧
      (∀ n, n < words → (writeSamples l.config l.writeOffset (frameSamples r) m).read (l.config.wordAt (l.writeOffset + n)) =
        BitVec.ofInt 32 (if r.width = 16 then (r.payload.getD (2 * n) 0 ++ r.payload.getD (2 * n + 1) 0).toInt * 256
          else (r.payload.getD (3 * n) 0 ++ (r.payload.getD (3 * n + 1) 0 ++ r.payload.getD (3 * n + 2) 0)).toInt)) ∧
      ∀ a, (∀ n, n < words → a ≠ l.config.wordAt (l.writeOffset + n)) →
        (writeSamples l.config l.writeOffset (frameSamples r) m).read a = m.read a := by
  obtain ⟨before, after, inserted, split, last, behind⟩ := insertByTime_split (frameRecord r l.writeOffset) l.queue
  have samples := frameSamples_eq width len
  have length : (frameSamples r).length = words := by rw [samples, List.length_map, List.length_range]
  obtain ⟨written, kept⟩ := writeSamples_read l.config (frameSamples r) l.writeOffset hm (by rwa [length])
  have queue : (l.takeFrame r).queue = insertByTime (frameRecord r l.writeOffset) l.queue := by rw [takeFrame_eq]
  refine ⟨before, after, ?_, split, last, behind, ?_, fun n hn => ?_, fun a other => kept a (by rwa [length])⟩
  · rw [queue, inserted, frameRecord, frameRecord_tag tagP]
  · have buffered : (l.takeFrame r).buffered =
        ({ l.allocate (frameWords r) with queue := insertByTime (frameRecord r l.writeOffset) l.queue } : Lane).buffered := by
      rw [takeFrame_eq]
      rfl
    rw [queue, buffered, hw]
    exact watermark_eq _ _ hd
  · rw [written n (by rwa [length])]
    simp only [samples, List.getElem_map, List.getElem_range]
    rfl

/-- Settles O35: the checks of an LFRAME in their order, its admission, and the late point by the lane's state. -/
theorem lframeChecksAndAdmits : Obligations.LframeChecksAndAdmits := by
  intro tag r s length fields refused hs hlength hfields hrefused
  have answers : ∀ {x : Byte}, frameOwner r s = (s, [x]) → refused x := fun h => (hrefused _).mpr (exec_served hs h rfl rfl rfl)
  have good : length → frameBadLength r = false := fun h => (frameBadLength_iff r).mpr (hlength.mp h)
  have inRange : fields → frameBadRange r = false := fun h => (frameBadRange_iff r).mpr (hfields.mp h)
  refine ⟨fun h => answers (frameOwner_badLength ?_ s), fun hl h => answers (frameOwner_badRange (good hl) ?_ s),
    fun hl hf h => answers (frameOwner_noLane (good hl) (inRange hf) (laneOfStream_none h)), fun i hl hf hp hb only => ?_,
    fun h l => latePoint?_unlocked h l, fun l next house target hnext hhouse htarget => ?_⟩
  · exact Bool.not_eq_false _ ▸ fun e => h (hlength.mpr ((frameBadLength_iff r).mp e))
  · exact Bool.not_eq_false _ ▸ fun e => h (hfields.mpr ((frameBadRange_iff r).mp e))
  · have routed := laneOfStream_eq hp hb only
    have hd : (s.lanes.get i).config.direction = .play := ((isPlay_iff _).mp hp).2
    obtain ⟨width, channels, few, many, marks, tagP⟩ := hfields.mp hf
    refine ⟨fun h => answers (frameOwner_channels (good hl) (inRange hf) routed h), ?_⟩
    intro o l window known late early twice misplaced full crowded hch ho hcommit hwindow hknown hlate hearly htwice hmisplaced hfull
      hcrowded
    have committed : s.commitForFrame (s.lanes.get i) = l := by
      rw [← ho] at hd ⊢
      rcases hcommit with ⟨rfl, stays⟩ | ⟨sw, p, m, hsw, hp, due, hm, rfl⟩
      · exact commitForFrame_stays (switchDue_stays stays)
      · exact commitForFrame_commits hd hsw ((switchDue_iff hsw _).mpr ⟨p, hp, due⟩) hm
    have direction : l.config.direction = .play := by
      rw [← committed, (commitForFrame_kept s _).worked.config, hd]
    obtain ⟨fails, passes⟩ := admission_cases few channels hwindow hknown hlate hearly htwice hmisplaced hfull hcrowded
    refine ⟨fun x hx => ?_, fun h1 h2 h3 h4 h5 h6 h7 h8 store => ?_⟩
    · obtain ⟨code, hcode, rfl⟩ := fails x hx
      exact exec_served hs (frameOwner_refused (good hl) (inRange hf) routed hch committed hcode) rfl rfl rfl
    · obtain ⟨before, after, queue, split, last, behind, lane, words, kept⟩ := takeFrame_writes direction rfl width (hlength.mp hl width)
        tagP store.1 (by have := mt hcrowded.mpr h8; omega)
      refine ⟨l.takeFrame r, before, after, _, _, _, rfl, rfl, queue, split, last, behind, lane, words, kept, ?_⟩
      exact exec_served hs (frameOwner_admitted (good hl) (inRange hf) routed hch committed (passes h1 h2 h3 h4 h5 h6 h7 h8))
        rfl rfl rfl
  · rw [hnext, ← nextBoundary_eq] at hhouse
    rw [latePoint?_eq hhouse, ← htarget]
    refine ⟨fun h => ⟨fun hc => ?_, fun c f rest hc hq => ?_⟩, fun h => ⟨fun t ha => ?_, fun f rest ha hq => ?_, fun ha hq => ?_⟩,
      fun h1 h2 h3 => ?_⟩
    · rcases h with h | h <;> simp [Lane.latePoint, h, Lane.cursorContent, hc]
    · rcases h with h | h <;> simp [Lane.latePoint, h, Lane.cursorContent, hc, hq, cursorTime_eq]
    · simp [Lane.latePoint, h, ha]
    · simp [Lane.latePoint, h, ha, hq]
    · simp [Lane.latePoint, h, ha, hq]
    · cases h : l.state <;> simp_all [Lane.latePoint]

end Sys2Proof.Machine

/-! The serial audio ports between boundaries (R143 to R153): sample periods and staging, the lines, and SPC's edges and bits. -/

namespace Sys2Proof.Machine

/-! ## Sample periods (R5, R145, R146) -/

theorem begins_eq (e : EmissionBlock) : e.begins = e.base + 33280 := rfl

theorem exec_samplePeriod {s : State} {p : OutPort} (run : s.running = true) (grid : s.count.toNat % 512 = 0)
    (on : (s.ports.get p).inForce.enable = true) :
    exec (.samplePeriod p) s = .next { s with ports := s.ports.set p ((s.ports.get p).loadPeriod s.count) } := by
  refine congrArg Host.Outcome.next (if_pos ?_)
  rw [run, on, onGrid]
  exact Bool.and_eq_true_iff.mpr ⟨beq_iff_eq.mpr grid, rfl⟩

/-- The finished blocks leave, and the first block that is not finished stays with all behind it (R146). -/
theorem loadPeriod_eq {p : OutPortState} {t : Time} {done rest : List EmissionBlock} (h : p.emission = done ++ rest)
    (finished : ∀ d ∈ done, 32768 ≤ (t - (d.base + 33280)).toInt)
    (first : ∀ e ∈ rest.head?, (t - (e.base + 33280)).toInt < 32768) :
    p.loadPeriod t = { p with emission := rest, staging := reducePair p.inForce.width (emissionPair t rest) } := by
  have kept : p.emission.dropWhile (fun e => e.finished t) = rest := by
    rw [h, List.dropWhile_append_of_pos (p := fun e => EmissionBlock.finished e t) fun d hd => decide_eq_true (finished d hd)]
    cases rest with
    | nil => rfl
    | cons e rest => exact List.dropWhile_cons_of_neg fun due => absurd (of_decide_eq_true due) (Int.not_le.mpr (first e rfl))
  simp only [OutPortState.loadPeriod, kept]

/-- The pair of the position that covers a period (R5, R146). -/
theorem emissionPair_covered {t : Time} {e : EmissionBlock} {rest : List EmissionBlock} {j : Nat} {v : Int × Int}
    (low : 512 * (j : Int) ≤ (t - (e.base + 33280)).toInt) (high : (t - (e.base + 33280)).toInt < 512 * (j + 1)) (hj : j < 64)
    (hv : e.pairs[j]? = some v) : emissionPair t (e :: rest) = v := by
  have position : e.position? t = some j := by
    unfold EmissionBlock.position?
    rw [begins_eq, sdiff]
    refine (if_pos ⟨by omega, by omega⟩).trans (congrArg some ?_)
    omega
  simp only [emissionPair, position, List.getD_eq_getElem?_getD, hv]
  rfl

theorem exec_hangTailEnd {s : State} {p : OutPort} {e : Time} (run : s.running = true) (h : (s.ports.get p).tailEnd = some e)
    (reached : 0 ≤ (s.count - e).toInt) :
    exec (.hangTailEnd p) s = .next { s with ports := s.ports.set p { s.ports.get p with tailEnd := none } } := by
  refine congrArg Host.Outcome.next (if_pos ?_)
  rw [State.tailReached, run, h]
  exact decide_eq_true reached

/-! ## The lines (R144, R150) -/

theorem wordSelectAt_eq {f : PortFormat} {now : Time} {select : Bool} (h : select = true ↔
    ((f.polarity = .leftLow ∧ 256 ≤ now.toNat % 512) ∨ (f.polarity = .leftHigh ∧ now.toNat % 512 < 256))) :
    wordSelectAt f.polarity now = select := by
  rw [Bool.eq_iff_iff, h]
  cases f.polarity <;> simp [wordSelectAt]

theorem bitClockAt_eq {now : Time} {clock : Bool} (h : clock = true ↔ 4 ≤ now.toNat % 8) : bitClockAt now = clock := by
  rw [Bool.eq_iff_iff, h, bitClockAt, decide_eq_true_iff]

/-- The data line (R144): the staging value of the half of the period, by the bit clocks of that half. -/
theorem dataAt_eq {p : OutPortState} {now : Time} {width first clocks : Nat} {v : Int}
    (hwidth : (p.inForce.width = .w16 ∧ width = 16) ∨ (p.inForce.width = .w24 ∧ width = 24))
    (hfirst : (p.inForce.alignment = .justified ∧ first = 0) ∨ (p.inForce.alignment = .delayed ∧ first = 1))
    (hclocks : clocks = now.toNat % 256 / 8) (hv : v = if now.toNat % 512 < 256 then p.staging.1 else p.staging.2) :
    (if now.toNat % 512 / 8 < 32 then slotBit p.inForce p.staging.1 (now.toNat % 512 / 8)
      else slotBit p.inForce p.staging.2 (now.toNat % 512 / 8 - 32)) =
      (decide (first ≤ clocks) && (BitVec.ofInt width v).getMsbD (clocks - first)) := by
  have bits : p.inForce.width.bits = width := by
    rcases hwidth with ⟨h, rfl⟩ | ⟨h, rfl⟩ <;> rw [h] <;> rfl
  have start : first = if p.inForce.alignment = .delayed then 1 else 0 := by
    rcases hfirst with ⟨h, rfl⟩ | ⟨h, rfl⟩ <;> rw [h] <;> rfl
  by_cases left : now.toNat % 512 < 256
  · rw [if_pos (by omega), slotBit_eq _ _ _ first start, bits, hv, if_pos left, hclocks,
      show now.toNat % 512 / 8 = now.toNat % 256 / 8 by omega]
  · rw [if_neg (by omega), slotBit_eq _ _ _ first start, bits, hv, if_neg left, hclocks,
      show now.toNat % 512 / 8 - 32 = now.toNat % 256 / 8 by omega]

/-- Settles O42: staging, the hang tail's end, and the lines of an output port and of SPC. -/
theorem samplePeriodAndHangTail : Obligations.SamplePeriodAndHangTail := by
  refine ⟨fun p s done rest e j v run grid on split finished low high hj hv => ?_,
    fun p s done waiting run grid on split finished begun => ?_, fun p s e run h reached => ?_,
    fun f now clock select hclock hselect => ⟨fun p hf => ?_, fun p hf => ⟨fun mode => ?_, fun mode => ?_⟩⟩⟩
  · have first : (s.count - (e.base + 33280)).toInt < 32768 := by omega
    rw [exec_samplePeriod run grid on, loadPeriod_eq split finished (by rintro _ ⟨⟩; exact first), emissionPair_covered low high hj hv]
    cases (s.ports.get p).inForce.width <;> rfl
  · have first : ∀ e ∈ waiting.head?, (s.count - (e.base + 33280)).toInt < 32768 := fun e he =>
      (begun e (List.mem_of_mem_head? he)).trans (by decide)
    rw [exec_samplePeriod run grid on, loadPeriod_eq split finished first, emissionPair_waiting _ _ begun]
    cases (s.ports.get p).inForce.width <;> rfl
  · refine ⟨_, exec_hangTailEnd run h reached, rfl, fun hang => ?_⟩
    simp [OutPortState.active, hang]
  · refine ⟨fun off => ?_, fun width first clocks v on hwidth hfirst hclocks hv => ?_⟩
    · rw [OutPortState.linesAt, hf, off]
      rfl
    · subst hf
      rw [OutPortState.linesAt, if_pos on]
      dsimp only
      rw [bitClockAt_eq hclock, wordSelectAt_eq hselect, dataAt_eq hwidth hfirst hclocks hv]
  · rw [InPortState.drivenAt, mode]
  · rw [InPortState.drivenAt, mode, hf, bitClockAt_eq hclock, wordSelectAt_eq hselect]

/-! ## SPC's edges (R150 to R153) -/

/-- A transition of SPC's word select is seen (R150). -/
theorem spcEdgeSeen_iff {s : State} (run : s.running = true) (on : s.spc.inForce.enable = true) (place : Nat) (level : Bool) :
    s.spcEdgeSeen place level = true ↔ s.spc.selectTaken = false ∧
      ((s.spc.modeInForce = .slave ∧ s.spc.selectLevel ≠ some level) ∨ (s.spc.modeInForce = .master ∧ s.count.toNat % 512 = place)) := by
  unfold State.spcEdgeSeen
  cases s.spc.modeInForce <;> simp [run, on, Config.sampleTicks]

/-- A rising edge of SPC's bit clock is seen (R144, R151). -/
theorem spcClockSeen_iff {s : State} (run : s.running = true) (on : s.spc.inForce.enable = true) :
    s.spcClockSeen = true ↔ s.spc.clockTaken = false ∧ (s.spc.modeInForce = .slave ∨ s.count.toNat % 8 = 4) := by
  simp [State.spcClockSeen, run, on]

theorem takeBit_eq (f : PortFormat) (clocked : Bool) (bits : List Bool) (bit : Bool) :
    takeBit f clocked bits bit =
      if (f.alignment = .delayed ∧ clocked = false) ∨ f.width.bits ≤ bits.length then bits else bits ++ [bit] := by
  unfold takeBit
  congr 1
  simp

/-- The watch takes an edge unless it is IDLE (R153). -/
theorem watchEdge_eq (w : ClockWatch) (t : Time) : w.edge t = if w = .idle then .idle else .watching t := by
  cases w <;> rfl

/-- The polarity by which a transition is judged (R143, R150; log 33). -/
theorem polarityNow_eq {p : InPortState} {polarity : WsPolarity}
    (slave : ∀ a, p.modeInForce = .slave → p.assembly = some a → a.slot = .left → polarity = a.format.polarity)
    (other : (p.modeInForce = .master ∨ ∀ a, p.assembly = some a → a.slot = .right) → polarity = p.inForce.polarity) :
    p.polarityNow = polarity := by
  unfold InPortState.polarityNow
  cases hm : p.modeInForce with
  | master => exact (other (.inl hm)).symm
  | slave =>
    cases ha : p.assembly with
    | none => exact (other (.inr fun a h => by rw [ha] at h; cases h)).symm
    | some a =>
      cases hs : a.slot with
      | left => exact (if_pos hs).trans (slave a hm ha hs).symm
      | right => exact (if_neg (by rw [hs]; decide)).trans (other (.inr fun b h => by rw [ha] at h; cases h; exact hs)).symm

theorem leftLevel_eq {p : InPortState} {polarity : WsPolarity} {left : Bool} (h : p.polarityNow = polarity)
    (hl : (polarity = .leftLow ∧ left = false) ∨ (polarity = .leftHigh ∧ left = true)) : p.leftLevel = left := by
  rw [InPortState.leftLevel, h]
  rcases hl with ⟨rfl, rfl⟩ | ⟨rfl, rfl⟩ <;> rfl

/-- A sample that is none, or ends within its left slot, or finds no capture lane running is handed to no lane (R152; log 33). -/
theorem deliverAssembly_none {s : State}
    (h : s.spc.assembly = none ∨ (∃ a, s.spc.assembly = some a ∧ a.slot = .left) ∨ ∀ i, (s.lanes.get i).isRunning = false) :
    s.deliverAssembly = s := by
  rcases deliverAssembly_cases s with e | ⟨a, ha, right, e⟩
  · exact e
  · rcases h with h | ⟨b, hb, left⟩ | idle
    · rw [ha] at h
      cases h
    · rw [ha] at hb
      cases hb
      rw [right] at left
      cases left
    · have resting : s.runningLane = none := List.find?_eq_none.mpr fun i _ => by rw [idle i]; decide
      rw [e, State.deliver, resting]

/-- An opening edge that is seen (R152, R153). -/
theorem exec_openingEdge {s : State} (h : s.spcEdgeSeen 0 s.spc.leftLevel = true) :
    exec .spcSampleComplete s = .next { s.deliverAssembly with spc := s.spc.openingEdge s.count } :=
  congrArg Host.Outcome.next (if_pos h)

theorem openingEdge_eq (p : InPortState) (t : Time) :
    p.openingEdge t = { p with
      assembly := some { opened := t, format := p.inForce, slot := .left, clocked := false, leftBits := [], rightBits := [] }
      watch := if p.watch = .idle then .idle else .watching t
      selectLevel := some p.leftLevel
      selectTaken := true } := by
  rw [InPortState.openingEdge, watchEdge_eq]
  rfl

/-- Settles O43: the bits, the transition into the right slot, the opening edge, and what is no event. -/
theorem spcAssemblesSamples : Obligations.SpcAssemblesSamples := by
  intro s polarity left run on slave other hleft
  have level : s.spc.leftLevel = left := leftLevel_eq (polarityNow_eq slave other) hleft
  refine ⟨fun bit a free clocked ha => ?_, fun bit h => ?_, fun free edge a ha => ?_, fun free edge alone => ?_, fun h => ?_, fun h => ?_⟩
  · refine (congrArg Host.Outcome.next (if_pos ((spcClockSeen_iff run on).mpr ⟨free, clocked⟩))).trans ?_
    simp only [ha, Option.map_some, Assembly.clock, takeBit_eq] <;> rfl
  · refine congrArg Host.Outcome.next (if_neg fun seen => ?_)
    obtain ⟨free, place⟩ := (spcClockSeen_iff run on).mp seen
    rcases h with taken | ⟨master, away⟩
    · exact Bool.false_ne_true (free.symm.trans taken)
    · exact place.elim (fun slave => by rw [master] at slave; cases slave) away
  · have seen : s.spcEdgeSeen 256 (!s.spc.leftLevel) = true := (spcEdgeSeen_iff run on _ _).mpr ⟨free, by rwa [level]⟩
    refine (congrArg Host.Outcome.next (if_pos seen)).trans ?_
    simp only [ha, Option.map_some, Assembly.endSlot, padBits, level, watchEdge_eq] <;> rfl
  · rw [exec_openingEdge ((spcEdgeSeen_iff run on _ _).mpr ⟨free, by rwa [level]⟩), deliverAssembly_none alone, openingEdge_eq, level]
  · refine congrArg Host.Outcome.next (if_neg fun seen => ?_)
    rw [level] at seen
    obtain ⟨free, place⟩ := (spcEdgeSeen_iff run on _ _).mp seen
    rcases h with taken | ⟨mode, still⟩ | ⟨mode, away⟩ <;> simp_all
  · refine congrArg Host.Outcome.next (if_neg fun seen => ?_)
    rw [level] at seen
    obtain ⟨free, place⟩ := (spcEdgeSeen_iff run on _ _).mp seen
    rcases h with taken | ⟨mode, still⟩ | ⟨mode, away⟩ <;> simp_all

end Sys2Proof.Machine

/-! A captured sample (R152, R160 to R163): where it is handed, the words it is written to, and the frames that it begins and closes. -/

namespace Sys2Proof.Machine

/-! ## Handing a sample over (R152, R160) -/

theorem LaneMap.set_get {α : Type} (m : LaneMap α) (i : LaneId) : m.set i (m.get i) = m := by cases i <;> rfl

theorem runningLane_eq {s : State} {i : LaneId} (h : (s.lanes.get i).isRunning = true)
    (only : ∀ j, j ≠ i → (s.lanes.get j).isRunning = false) : s.runningLane = some i := by
  refine find?_unique (LaneId.mem_list i) h fun j hj => by_contra fun other => ?_
  rw [only j other] at hj
  cases hj

/-- A sample whose right slot has opened goes to the RUNNING capture lane (R152). -/
theorem deliverAssembly_running {s : State} {a : Assembly} {i : LaneId} (ha : s.spc.assembly = some a) (right : a.slot = .right)
    (h : (s.lanes.get i).isRunning = true) (only : ∀ j, j ≠ i → (s.lanes.get j).isRunning = false) {l : Lane} {m : Memory}
    (take : (s.lanes.get i).takeSample s.tracker a.opened a.values.1 a.values.2 s.store = (l, m)) :
    s.deliverAssembly = { s with lanes := s.lanes.set i l, store := m } := by
  have deliver : s.deliver a = { s with lanes := s.lanes.set i l, store := m } := by
    rw [State.deliver, runningLane_eq h only]
    dsimp only
    rw [take]
    rfl
  rcases deliverAssembly_cases s with e | ⟨b, hb, -, e⟩
  · rw [State.deliverAssembly, ha]
    dsimp only
    rw [right]
    exact deliver
  · rw [ha] at hb
    cases hb
    rw [e, deliver]

theorem deliverAssembly_frame (s : State) :
    s.deliverAssembly = { s with lanes := s.deliverAssembly.lanes, store := s.deliverAssembly.store } := by
  rcases deliverAssembly_cases s with e | ⟨a, -, -, e⟩
  · rw [e]
  · rw [e, State.deliver]
    cases s.runningLane <;> rfl

theorem takesStamp_iff {l : Lane} {e : Time} (h : l.entryTime = some e) (stamp : Time) :
    l.takesStamp stamp = true ↔ 0 ≤ (stamp - e).toInt := by
  simp only [Lane.takesStamp, h, notEarlier, sdiff]
  exact decide_eq_true_iff

/-! ## The words of a sample (R53, R151, R160, R162) -/

theorem two_le_regionSize (c : LaneConfig) : 2 ≤ c.regionSize := by
  simp only [LaneConfig.regionSize, Config.pageWords]
  omega

/-- The left value stands in the first word and the right one, for two channels, in the next; every other word stays. -/
theorem taken_read {c : LaneConfig} (hc : c.channels = 1 ∨ c.channels = 2) (o : Nat) (left right : Int) {m : Memory}
    (hm : m.wf = true) :
    (∀ n, n < c.channels →
      (writeSamples c o (c.taken left right) m).read (c.wordAt (o + n)) = BitVec.ofInt 32 (if n = 0 then left else right)) ∧
    ∀ w, (∀ n, n < c.channels → w ≠ c.wordAt (o + n)) → (writeSamples c o (c.taken left right) m).read w = m.read w := by
  have size := two_le_regionSize c
  rcases hc with hc | hc
  · have taken : c.taken left right = [left] := if_pos hc
    obtain ⟨written, kept⟩ := writeSamples_read c [left] o hm (by simp only [List.length_singleton]; omega)
    rw [taken, hc]
    refine ⟨fun n hn => ?_, kept⟩
    obtain rfl := Nat.lt_one_iff.mp hn
    exact written 0 hn
  · have taken : c.taken left right = [left, right] := if_neg (by omega)
    obtain ⟨written, kept⟩ := writeSamples_read c [left, right] o hm size
    rw [taken, hc]
    refine ⟨fun n hn => (written n hn).trans ?_, kept⟩
    match n, hn with
    | 0, _ => rfl
    | 1, _ => rfl

/-- The value of a slot (R151): its bits in two's complement, a 16-bit value multiplied by 256. -/
theorem slotValue_bits (w : Width) (bits : List Bool) :
    (w = .w24 ∧ ∃ x : BitVec 24, (∀ k, k < 24 → x.getMsbD k = bits.getD k false) ∧ slotValue w bits = x.toInt) ∨
      (w = .w16 ∧ ∃ x : BitVec 16, (∀ k, k < 16 → x.getMsbD k = bits.getD k false) ∧ slotValue w bits = x.toInt * 256) := by
  cases w with
  | w24 => exact .inl ⟨rfl, _, fun k hk => bitsValue_getMsbD 24 bits k hk, rfl⟩
  | w16 => exact .inr ⟨rfl, _, fun k hk => bitsValue_getMsbD 16 bits k hk, rfl⟩

/-! ## Writing into the frame being filled, and closing it (R160, R162, R163) -/

section
variable {l : Lane} {f : Filling} (h : l.filling = some f) (t : Tracker) (left right : Int) (m : Memory)
include h

theorem writeSample_open (room : f.written + 1 < f.record.samples) :
    l.writeSample t left right m =
      ({ l with filling := some { f with written := f.written + 1 } },
        writeSamples l.config f.nextOffset (l.config.taken left right) m) := by
  simp only [Lane.writeSample, h]
  exact if_neg (Nat.not_le_of_lt room)

theorem writeSample_full (full : f.written + 1 = f.record.samples) :
    l.writeSample t left right m =
      (l.closeFrame t { f with written := f.written + 1 }, writeSamples l.config f.nextOffset (l.config.taken left right) m) := by
  simp only [Lane.writeSample, h]
  exact if_pos (Nat.le_of_eq full.symm)

/-- A lane with a frame being filled writes a sample that it takes into that frame (R160). -/
theorem takeSample_filling {stamp : Time} (takes : l.takesStamp stamp = true) :
    l.takeSample t stamp left right m = l.writeSample t left right m := by
  refine (if_pos takes).trans ?_
  rw [if_pos (by rw [h]; rfl)]

end

theorem closeFrame_eq (t : Tracker) (l : Lane) (f : Filling) :
    l.closeFrame t f = { l with
      queue := l.queue ++ [closedRecord t l f]
      lastSeq := l.lastSeq + 1
      filling := none
      captureCounters := { l.captureCounters with closed := satInc l.captureCounters.closed }
      flags := l.flags ||| (if l.queue.length + 1 = l.config.dataMark then 0x80 else 0) } := by
  have length : (l.queue ++ [closedRecord t l f]).length = l.queue.length + 1 := by simp
  unfold Lane.closeFrame
  dsimp only
  rw [length]
  by_cases mark : l.queue.length + 1 = l.config.dataMark
  · rw [if_pos mark, if_pos mark]
    rfl
  · rw [if_neg mark, if_neg mark]
    simp

theorem closedRecord_eq (t : Tracker) (l : Lane) (f : Filling) :
    closedRecord t l f = { f.record with
      status := .queued, stream := l.runNumber, seq := l.lastSeq + 1, epoch := t.epoch,
      pts := t.house? (f.first - BitVec.ofNat 48 l.config.inputLatency), endMark := false, tag := none } := by
  have stamp : addTicks f.first (-(l.config.inputLatency : Int)) = f.first - BitVec.ofNat 48 l.config.inputLatency := by
    rw [addTicks, BitVec.ofInt_neg, BitVec.ofInt_natCast, BitVec.sub_eq_add_neg]
  rw [closedRecord, stamp]

/-! ## Overruns, and the frame that begins (R161) -/

theorem releaseHead_counted (m : Lane) (c : CaptureCounters) (g : Byte) :
    ({ m with captureCounters := c, flags := g } : Lane).releaseHead = { m.releaseHead with captureCounters := c, flags := g } := by
  cases h : m.queue <;> simp only [Lane.releaseHead, h, Lane.releaseAlloc]

/-- `k` heads are released: the configuration, the write offset and all but the ring, the queue and the cursor stay. -/
theorem iterate_releaseHead_frame (k : Nat) (l : Lane) :
    Lane.releaseHead^[k] l = { l with
      allocs := (Lane.releaseHead^[k] l).allocs, reclaimOffset := (Lane.releaseHead^[k] l).reclaimOffset,
      queue := (Lane.releaseHead^[k] l).queue, cursor := (Lane.releaseHead^[k] l).cursor } ∧
    (Lane.releaseHead^[k] l).queue.length = l.queue.length - k := by
  induction k with
  | zero => exact ⟨rfl, rfl⟩
  | succ k ih =>
    obtain ⟨frame, length⟩ := ih
    rw [Function.iterate_succ_apply']
    refine ⟨(releaseHead_released _).frame.trans ?_, ?_⟩
    · generalize Lane.releaseHead^[k] l = n at frame
      rw [frame]
    · rw [releaseHead_queue, List.length_tail, length]
      omega

/-- `k` overruns are `k` releases, counted and flagged (R161). -/
theorem iterate_overrun (k : Nat) {l : Lane} (hc : l.captureCounters.overruns ≤ 65535) :
    Lane.overrun^[k] l = { Lane.releaseHead^[k] l with
      captureCounters := { l.captureCounters with overruns := min (l.captureCounters.overruns + k) 65535 }
      flags := l.flags ||| (if k = 0 then 0 else 0x40) } := by
  induction k with
  | zero =>
    have counter : min (l.captureCounters.overruns + 0) 65535 = l.captureCounters.overruns := by omega
    rw [counter, if_pos rfl]
    simp
  | succ k ih =>
    rw [Function.iterate_succ_apply', Function.iterate_succ_apply', ih, Lane.overrun, releaseHead_counted, if_neg (Nat.succ_ne_zero k)]
    have counter : satInc (min (l.captureCounters.overruns + k) 65535) = min (l.captureCounters.overruns + (k + 1)) 65535 := by
      simp only [satInc]
      omega
    have flag : l.flags ||| (if k = 0 then 0 else 0x40) ||| bitMask LaneFlag.overrun.bit = l.flags ||| 0x40 := by
      have mask : bitMask LaneFlag.overrun.bit = 0x40 := rfl
      rw [mask, BitVec.or_assoc]
      split <;> rfl
    simp only [Lane.raise, counter, flag]

/-- Overruns stop at the first lane that lacks no room, or that has no closed frame left. -/
theorem makeRoom_iterate {k n : Nat} {l : Lane} (hk : k ≤ n)
    (lacks : ∀ j, j < k → (Lane.overrun^[j] l).lacksRoom = true ∧ (Lane.overrun^[j] l).queue ≠ [])
    (done : (Lane.overrun^[k] l).lacksRoom = false ∨ (Lane.overrun^[k] l).queue = []) : l.makeRoom n = Lane.overrun^[k] l := by
  induction k generalizing n l with
  | zero =>
    cases n with
    | zero => rfl
    | succ n =>
      refine if_neg ?_
      rcases done with h | h
      · rw [show l.lacksRoom = false from h]
        exact Bool.false_ne_true
      · rw [show l.queue = [] from h]
        simp
  | succ k ih =>
    obtain ⟨n, rfl⟩ : ∃ m, n = m + 1 := ⟨n - 1, by omega⟩
    obtain ⟨short, more⟩ : l.lacksRoom = true ∧ l.queue ≠ [] := lacks 0 (Nat.succ_pos k)
    have goOn : (l.lacksRoom && !l.queue.isEmpty) = true := by
      rw [short, List.isEmpty_eq_false_iff.mpr more]
      rfl
    rw [Function.iterate_succ_apply] at done ⊢
    exact (if_pos goOn).trans (ih (Nat.le_of_succ_le_succ hk) (fun j hj => lacks (j + 1) (Nat.succ_lt_succ hj)) done)

/-- The frame that begins after `k` overruns (R161). -/
theorem beginFrame_eq {l m : Lane} {k words : Nat} (hc : l.captureCounters.overruns ≤ 65535)
    (hw : words = l.config.frameSize * l.config.channels) (hm : m = Lane.releaseHead^[k] l) (hk : k ≤ l.queue.length)
    (lacks : ∀ j, j < k → (Lane.releaseHead^[j] l).free < words ∨ l.config.quota ≤ l.queue.length - j) (room : words ≤ m.free)
    (done : l.queue.length - k < l.config.quota ∨ k = l.queue.length) (stamp : Time) :
    l.beginFrame stamp = { m with
      writeOffset := (l.writeOffset + words) % l.config.regionSize
      allocs := m.allocs ++ [{ start := l.writeOffset, len := words, released := false }]
      filling := some (l.newFilling stamp)
      discPending := false
      captureCounters := { l.captureCounters with overruns := min (l.captureCounters.overruns + k) 65535 }
      flags := l.flags ||| (if k = 0 then 0 else 0x40) } := by
  have config : ∀ j, (Lane.releaseHead^[j] l).config = l.config := fun j => by rw [(iterate_releaseHead_frame j l).1]
  have lacksRoom : ∀ j, (Lane.overrun^[j] l).lacksRoom = true ↔
      (Lane.releaseHead^[j] l).free < words ∨ l.config.quota ≤ l.queue.length - j := by
    intro j
    rw [iterate_overrun j hc, hw, ← (iterate_releaseHead_frame j l).2, ← config j]
    simp only [Lane.lacksRoom, Bool.or_eq_true, decide_eq_true_iff]
    rfl
  have queue : ∀ j, (Lane.overrun^[j] l).queue = (Lane.releaseHead^[j] l).queue := fun j => by rw [iterate_overrun j hc]
  have more : ∀ j, (Lane.overrun^[j] l).queue = [] ↔ l.queue.length ≤ j := by
    intro j
    rw [queue, ← List.length_eq_zero_iff, (iterate_releaseHead_frame j l).2]
    omega
  have made : l.makeRoom l.queue.length = Lane.overrun^[k] l := by
    refine makeRoom_iterate hk (fun j hj => ⟨(lacksRoom j).mpr (lacks j hj), fun e => ?_⟩) ?_
    · have := (more j).mp e
      omega
    · by_cases last : k = l.queue.length
      · exact .inr ((more k).mpr last.ge)
      · refine .inl (Bool.eq_false_iff.mpr fun short => ?_)
        rcases (lacksRoom k).mp short with h | h
        · rw [← hm] at h
          omega
        · omega
  have overruns := iterate_overrun k hc
  rw [← hm] at overruns
  obtain ⟨config, offset, pending⟩ : m.config = l.config ∧ m.writeOffset = l.writeOffset ∧ m.discPending = l.discPending := by
    rw [hm, (iterate_releaseHead_frame k l).1]
    exact ⟨rfl, rfl, rfl⟩
  unfold Lane.beginFrame
  rw [made, overruns]
  refine (if_neg (Nat.not_lt_of_le ?_)).trans ?_
  · dsimp only
    rw [config, LaneConfig.captureWords, ← hw]
    rw [Lane.free, config] at room
    exact room
  · dsimp only [Lane.allocate, Lane.newFilling, LaneConfig.captureWords]
    rw [config, offset, pending, hw]

/-- Settles O44: the sample that is handed over, and the words it is written to. -/
theorem capturedSampleIsWritten : Obligations.CapturedSampleIsWritten := by
  intro s i a e store run on free edge ha hi only hentry
  have seen : s.spcEdgeSeen 0 s.spc.leftLevel = true := (spcEdgeSeen_iff run on _ _).mpr ⟨free, edge⟩
  have stamp := takesStamp_iff hentry a.opened
  refine ⟨_, exec_openingEdge seen, ?_, fun h => ?_, fun f right entered hf room hcf hc => ?_⟩
  · rw [openingEdge_eq, deliverAssembly_frame]
  · have stays : s.deliverAssembly = s := by
      cases hslot : a.slot with
      | left => exact deliverAssembly_none (.inr (.inl ⟨a, ha, hslot⟩))
      | right =>
        have early : (a.opened - e).toInt < 0 := h.resolve_left (by rw [hslot]; decide)
        have take : (s.lanes.get i).takeSample s.tracker a.opened a.values.1 a.values.2 s.store = (s.lanes.get i, s.store) :=
          if_neg fun takes => absurd (stamp.mp takes) (Int.not_le.mpr early)
        rw [deliverAssembly_running ha hslot hi only take, LaneMap.set_get]
    exact ⟨(congrArg State.lanes stays :), (congrArg State.store stays :)⟩
  · have take := (takeSample_filling hf s.tracker a.values.1 a.values.2 s.store (stamp.mpr entered)).trans (writeSample_open hf _ _ _ _ room)
    obtain ⟨written, kept⟩ := taken_read (c := (s.lanes.get i).config) (by rwa [hcf]) f.nextOffset a.values.1 a.values.2 store.1
    rw [hcf] at written kept
    rw [deliverAssembly_running ha right hi only take]
    refine ⟨rfl, fun n bits hn hbits => ?_, kept⟩
    refine ⟨slotValue a.format.width bits, slotValue_bits _ _, (written n hn).trans (congrArg _ ?_)⟩
    rw [hbits]
    split <;> rfl

/-- Settles O45: the frame that begins after its overruns, and the one that a sample closes. -/
theorem captureFrameBeginsAndCloses : Obligations.CaptureFrameBeginsAndCloses := by
  intro s i a e l store run on free edge ha right hl hi only hentry entered hc
  subst hl
  have seen : s.spcEdgeSeen 0 s.spc.leftLevel = true := (spcEdgeSeen_iff run on _ _).mpr ⟨free, edge⟩
  have takes := (takesStamp_iff hentry a.opened).mpr entered
  have value : ∀ n : Nat, (if n = 0 then a.values.1 else a.values.2) =
      slotValue a.format.width (if n = 0 then a.leftBits else a.rightBits) := fun n => by split <;> rfl
  refine ⟨_, exec_openingEdge seen, fun k words m hf long counted hw hm hk lacks room done => ?_, fun f hf full hcf => ?_⟩
  · have begins := beginFrame_eq counted hw hm hk lacks room done a.opened
    have config : m.config = (s.lanes.get i).config := by rw [hm, (iterate_releaseHead_frame k _).1]
    have filling : ((s.lanes.get i).beginFrame a.opened).filling = some ((s.lanes.get i).newFilling a.opened) := by rw [begins]
    have take : (s.lanes.get i).takeSample s.tracker a.opened a.values.1 a.values.2 s.store =
        ({ (s.lanes.get i).beginFrame a.opened with filling := some { (s.lanes.get i).newFilling a.opened with written := 1 } },
          writeSamples (s.lanes.get i).config (s.lanes.get i).writeOffset
            ((s.lanes.get i).config.taken a.values.1 a.values.2) s.store) := by
      refine (if_pos takes).trans ?_
      rw [if_neg (by rw [hf]; decide)]
      have same : ((s.lanes.get i).beginFrame a.opened).config = (s.lanes.get i).config := by rw [begins, config]
      have first : ((s.lanes.get i).newFilling a.opened).nextOffset = (s.lanes.get i).writeOffset := by
        simp [Filling.nextOffset, Lane.newFilling]
      refine (writeSample_open filling _ _ _ _ long).trans (congrArg (Prod.mk _) ?_)
      rw [same, first]
    obtain ⟨written, kept⟩ := taken_read hc (s.lanes.get i).writeOffset a.values.1 a.values.2 store.1
    rw [deliverAssembly_running ha right hi only take]
    refine ⟨⟨((s.lanes.get i).newFilling a.opened).record, rfl, rfl, rfl, rfl, rfl, ?_⟩, fun n hn => ?_, kept⟩
    · dsimp only
      rw [begins]
      rfl
    · rw [← value n]
      exact written n hn
  · have take := (takeSample_filling hf s.tracker a.values.1 a.values.2 s.store takes).trans (writeSample_full hf _ _ _ _ full)
    obtain ⟨written, kept⟩ := taken_read hc f.nextOffset a.values.1 a.values.2 store.1
    rw [deliverAssembly_running ha right hi only take]
    refine ⟨?_, fun n hn => ?_, kept⟩
    · dsimp only
      rw [closeFrame_eq, closedRecord_eq]
      rfl
    · rw [← value n]
      exact written n hn

end Sys2Proof.Machine

/-! The lane states at a boundary (R83, R89 to R94): permission to emit, the work of each state without it, and of a PLAYING or HELD lane
whose cursor a purge took. -/

namespace Sys2Proof.Machine

/-! ## Permission (R83, R109) -/

theorem permitted_iff (p : SyncPolicy) (t : TrackerState) :
    permitted p t = true ↔ (p = .strict ∧ (t = .locked ∨ t = .holdover ∨ t = .ref)) ∨ (p = .loose ∧ t ≠ .unlocked) := by
  cases p <;> cases t <;> decide

theorem not_permitted_iff (p : SyncPolicy) (t : TrackerState) :
    permitted p t = false ↔ (p = .strict ∧ t ≠ .locked ∧ t ≠ .holdover ∧ t ≠ .ref) ∨ (p = .loose ∧ t = .unlocked) := by
  cases p <;> cases t <;> decide

theorem permittedTarget_refused {env : BoundaryEnv} {l : Lane} (h : permitted l.config.policy env.tracker.state = false) :
    env.permittedTarget l = none :=
  if_neg (Bool.eq_false_iff.mp h)

theorem permittedTarget_granted {env : BoundaryEnv} {l : Lane} {house : Time} (h : permitted l.config.policy env.tracker.state = true)
    (hh : env.house = some house) : env.permittedTarget l = some (house - BitVec.ofInt 48 l.config.roomOffset) := by
  refine (if_pos h).trans ?_
  rw [BoundaryEnv.target, hh, Option.map_some, target_eq]

theorem permittedTarget_of_policy {env : BoundaryEnv} {l : Lane} {house t : Time}
    (perm : (l.config.policy = .strict ∧
        (env.tracker.state = .locked ∨ env.tracker.state = .holdover ∨ env.tracker.state = .ref)) ∨
      (l.config.policy = .loose ∧ env.tracker.state ≠ .unlocked))
    (hh : env.house = some house) (ht : t = house - BitVec.ofInt 48 l.config.roomOffset) : env.permittedTarget l = some t := by
  rw [ht]
  exact permittedTarget_granted ((permitted_iff _ _).mpr perm) hh

/-! ## The cursor's content (R82, R110) -/

theorem cursorContent_none {l : Lane} : l.cursorContent = none ↔ l.cursor = none ∨ l.queue = [] := by
  unfold Lane.cursorContent
  cases l.cursor <;> cases l.queue <;> simp

theorem cursorContent_some {l : Lane} {c : Cursor} {f : FrameRecord} {rest : List FrameRecord} (hc : l.cursor = some c)
    (hq : l.queue = f :: rest) : l.cursorContent = some (f.time + BitVec.ofNat 48 (512 * c.index + c.frac / 2 ^ 15)) := by
  rw [← cursorTime_eq]
  simp only [Lane.cursorContent, hc, hq]

/-! ## A lane whose cursor a purge took (R92, R93) -/

theorem starve_eq (l : Lane) :
    l.starve = { l with
      state := .starved
      cursor := none
      aim := .absent
      slipMark := none
      flags := l.flags ||| 0x40
      counters := { l.counters with starvations := min (l.counters.starvations + 1) 65535 } } := rfl

theorem workPurged_empty (env : BoundaryEnv) {l : Lane} (h : l.queue = []) : l.workPurged env = (l.starve, silence) :=
  if_pos (List.isEmpty_iff.mpr h)

theorem workPurged_frames (env : BoundaryEnv) {l : Lane} (h : l.queue ≠ []) : l.workPurged env = l.bridgeToHead env :=
  if_neg fun e => h (List.isEmpty_iff.mp e)

theorem workPlaying_purged (env : BoundaryEnv) {l : Lane} (h : l.cursorContent = none) : l.workPlaying env = l.workPurged env := by
  simp only [Lane.workPlaying, h]

theorem workHeld_purged (env : BoundaryEnv) {l : Lane} (h : l.cursorContent = none) : l.workHeld env = l.workPurged env := by
  simp only [Lane.workHeld, h]

theorem workState_purged (env : BoundaryEnv) {l : Lane} (hs : l.state = .playing ∨ l.state = .held) (hc : l.cursor = none) :
    l.workState env = l.workPurged env := by
  have content := cursorContent_none.mpr (.inl hc)
  rcases hs with e | e <;> rw [Lane.workState, e]
  · exact workPlaying_purged env content
  · exact workHeld_purged env content

theorem workStarved_empty (env : BoundaryEnv) {l : Lane} (h : l.queue = []) : l.workStarved env = (l, silence) :=
  if_pos (List.isEmpty_iff.mpr h)

theorem workStarved_frames (env : BoundaryEnv) {l : Lane} (h : l.queue ≠ []) : l.workStarved env = l.bridgeToHead env :=
  if_neg fun e => h (List.isEmpty_iff.mp e)

/-! ## Without permission (R83, R89 to R94) -/

section
variable {env : BoundaryEnv} {l : Lane} (h : env.permittedTarget l = none)
include h

theorem workArmed_refused : l.workArmed env = (l, silence) := by simp only [Lane.workArmed, h]

theorem workBridging_refused : l.workBridging env = (l, silence) := by simp only [Lane.workBridging, h]

theorem bridgeToHead_refused : l.bridgeToHead env = ({ l with state := .bridging, aim := .frame }, silence) :=
  workBridging_refused (l := { l with state := .bridging, aim := .frame }) h

theorem workPurged_refused : (l.workPurged env).2 = silence := by
  by_cases empty : l.queue = []
  · rw [workPurged_empty env empty]
  · rw [workPurged_frames env empty, bridgeToHead_refused h]

theorem workStarved_refused : (l.workStarved env).2 = silence := by
  by_cases empty : l.queue = []
  · rw [workStarved_empty env empty]
  · rw [workStarved_frames env empty, bridgeToHead_refused h]

theorem workHeld_refused {content : Time} (hc : l.cursorContent = some content) : l.workHeld env = (l, silence) := by
  simp only [Lane.workHeld, hc, h]

theorem workPlaying_refused {content : Time} (hc : l.cursorContent = some content) :
    l.workPlaying env = ({ l with
      state := .held
      flags := l.flags ||| 0x01
      counters := { l.counters with holds := min (l.counters.holds + 1) 65535 } }, silence) := by
  simp only [Lane.workPlaying, hc, h]
  rfl

theorem workStopping_refused : l.workStopping env = (l.completeStop, silence) := by
  have block : l.stoppingBlock env = (l, silence) := by
    unfold Lane.stoppingBlock
    rw [h]
    cases l.halt <;> cases l.cursorContent <;> rfl
  rw [Lane.workStopping, block]

/-- Without permission every state's block is silent (R83). -/
theorem workState_refused : (l.workState env).2 = silence := by
  cases hs : l.state <;> simp only [Lane.workState, hs]
  case armed => rw [workArmed_refused h]
  case playing =>
    cases hc : l.cursorContent with
    | none => rw [workPlaying_purged env hc, workPurged_refused h]
    | some content => rw [workPlaying_refused h hc]
  case bridging => rw [workBridging_refused h]
  case starved => exact workStarved_refused h
  case held =>
    cases hc : l.cursorContent with
    | none => rw [workHeld_purged env hc, workPurged_refused h]
    | some content => rw [workHeld_refused h hc]
  case stopping => rw [workStopping_refused h]

end

/-- A lane whose policy does not permit the tracker's state has a silent block, whatever its cue actions and its switch (R83). -/
theorem boundaryWork_silent {env : BoundaryEnv} {l : Lane} (h : permitted l.config.policy env.tracker.state = false) :
    (l.boundaryWork env).block = silence := by
  have refused : ∀ m : Lane, m.config = l.config → (m.workState env).2 = silence := fun m hm =>
    workState_refused (permittedTarget_refused (by rw [hm, h]))
  have config := (cueStep_worked env l).config
  unfold Lane.boundaryWork
  dsimp only
  split
  · refine refused _ ?_
    split
    · rw [commit_frame]
      exact config
    · exact config
  · rfl

/-- The boundary's work of a PLAY lane with no cue action and no switch due: its state's, with the watermark check. -/
theorem boundaryWork_outcome {env : BoundaryEnv} {l : Lane} (hd : l.config.direction = .play) (ha : l.actions = [])
    (due : l.switchDue (env.target l) = false) {m : Lane} {b : Block} (on : l.state ≠ .off) (h : l.workState env = (m, b)) :
    (l.boundaryWork env).lane = m.watermark l.buffered ∧ (l.boundaryWork env).block = b := by
  rw [boundaryWork_state env l ha ((isPlay_iff l).mpr ⟨on, hd⟩) due, h]
  exact ⟨rfl, rfl⟩

/-- The boundary's work of a PLAY lane with no cue action and no switch, from what its state's work gives. -/
theorem boundaryWork_of_state {env : BoundaryEnv} {l m : Lane} {b : Block} (hd : l.config.direction = .play) (on : l.state ≠ .off)
    (hs : l.switch = none) (ha : l.actions = []) (h : l.workState env = (m, b)) :
    l.boundaryWork env = { lane := m.watermark l.buffered, block := b, outcomes := [] } := by
  rw [boundaryWork_state env l ha ((isPlay_iff l).mpr ⟨on, hd⟩) (switchDue_stays fun sw p hsw => by rw [hs] at hsw; cases hsw), h]

/-- Settles O15: silence without permission, and what each state becomes. -/
theorem silentAndHeldWithoutPermission : Obligations.SilentAndHeldWithoutPermission := by
  intro env l hperm
  have denied := (not_permitted_iff _ _).mpr hperm
  have h : env.permittedTarget l = none := permittedTarget_refused denied
  refine ⟨boundaryWork_silent denied, fun hd hst hc hq hs ha => ?_, fun hd hs ha => ⟨fun hst => ?_, fun hst hq => ?_, fun hst hc => ?_⟩⟩
  · obtain ⟨content, hcon⟩ := Option.ne_none_iff_exists'.mp fun e => (cursorContent_none.mp e).elim hc hq
    rw [boundaryWork_of_state hd (by rw [hst]; decide) hs ha (by simp only [Lane.workState, hst]; exact workPlaying_refused h hcon)]
    exact watermark_same _ _ rfl
  · have stays : l.workState env = (l, silence) := by
      rcases hst with e | e | ⟨e, hc, hq⟩ | ⟨e, hq⟩ <;> simp only [Lane.workState, e]
      · exact workArmed_refused h
      · exact workBridging_refused h
      · obtain ⟨content, hcon⟩ := Option.ne_none_iff_exists'.mp fun e => (cursorContent_none.mp e).elim hc hq
        exact workHeld_refused h hcon
      · exact workStarved_empty env hq
    rw [boundaryWork_of_state hd (by rcases hst with e | e | ⟨e, -⟩ | ⟨e, -⟩ <;> rw [e] <;> decide) hs ha stays]
    exact watermark_same _ _ rfl
  · rw [boundaryWork_of_state hd (by rw [hst]; decide) hs ha
      (by simp only [Lane.workState, hst]; exact (workStarved_frames env hq).trans (bridgeToHead_refused h))]
    exact watermark_same _ _ rfl
  · have purged := workState_purged env hst hc
    have on : l.state ≠ .off := by rcases hst with e | e <;> rw [e] <;> decide
    refine ⟨fun hq => ?_, fun hq => ?_⟩
    · rw [boundaryWork_of_state hd on hs ha (purged.trans (workPurged_empty env hq)), starve_eq]
      exact watermark_same _ _ (by simp only [Lane.buffered, hq]; rfl)
    · rw [boundaryWork_of_state hd on hs ha (purged.trans ((workPurged_frames env hq).trans (bridgeToHead_refused h)))]
      exact watermark_same _ _ rfl

end Sys2Proof.Machine

/-! The positions of a block and the ends of frames within it (R66, R69, R98 to R102, R121 to R125). -/

namespace Sys2Proof.Machine

/-! ## Entering a frame (R66, R69, R97, R99) -/

/-- The cursor stands in the queue's head, which is PLAYING; a frame that begins to play has its tag recorded and flagged. -/
def Lane.entered (l : Lane) (g : FrameRecord) (more : List FrameRecord) (c : Cursor) : Lane :=
  { l with
    queue := { g with status := .playing } :: more
    cursor := some c
    lastTag := if g.status ≠ .playing ∧ g.tag ≠ none then g.tag else l.lastTag
    flags := l.flags ||| (if g.status ≠ .playing ∧ g.tag ≠ none then 0x02 else 0) }

section
variable {l : Lane} {g : FrameRecord} {more : List FrameRecord} (hq : l.queue = g :: more) (c : Cursor)
include hq

theorem enterHead_playing (h : g.status = .playing) : l.enterHead c = l.entered g more c := by
  have marked : ({ g with status := .playing } : FrameRecord) = g := by rw [← h]
  simp [Lane.enterHead, Lane.markHeadPlaying, Lane.entered, hq, h, marked]

/-- A frame that begins to play, but for a switch to its stream. -/
theorem enterHead_begins (h : g.status ≠ .playing) :
    l.enterHead c = { l.markHeadPlaying with cursor := some c }.beginEffects g := by
  simp only [Lane.enterHead, hq]
  exact if_neg h

theorem beginEffects_entered (h : g.status ≠ .playing) :
    ((l.switch = none ∨ ∃ sw, l.switch = some sw ∧ sw.stream ≠ g.stream) →
      ({ l.markHeadPlaying with cursor := some c } : Lane).beginEffects g = l.entered g more c) ∧
    (∀ sw, l.switch = some sw → sw.stream = g.stream →
      ({ l.markHeadPlaying with cursor := some c } : Lane).beginEffects g = (l.entered g more c).commit) := by
  have marked : l.markHeadPlaying = { l with queue := { g with status := .playing } :: more } := by
    simp only [Lane.markHeadPlaying, hq]
  rw [marked]
  unfold Lane.beginEffects Lane.entered
  cases ht : g.tag <;> cases hs : l.switch <;> simp +contextual [h, Lane.raise, bitMask, LaneFlag.bit]

/-- A frame entered that is PLAYING already, or is not of a pending stream (R69, R97, R99). -/
theorem enterHead_entered (h : ∀ sw, l.switch = some sw → sw.stream ≠ g.stream ∨ g.status = .playing) :
    l.enterHead c = l.entered g more c := by
  by_cases playing : g.status = .playing
  · exact enterHead_playing hq c playing
  · rw [enterHead_begins hq c playing]
    refine (beginEffects_entered hq c playing).1 ?_
    cases hs : l.switch with
    | none => exact .inl rfl
    | some sw => exact .inr ⟨sw, rfl, (h sw hs).resolve_right playing⟩

/-- A frame of the pending stream that begins to play commits the switch (R66). -/
theorem enterHead_commits {sw : Switch} (hs : l.switch = some sw) (same : sw.stream = g.stream) (h : g.status ≠ .playing) :
    l.enterHead c = (l.entered g more c).commit := by
  rw [enterHead_begins hq c h]
  exact (beginEffects_entered hq c h).2 sw hs same

end

/-- The commit at a frame that begins to play: its cursor and record stay, the old stream's QUEUED frames go (R66). -/
theorem entered_commit {l : Lane} {sw : Switch} (hs : l.switch = some sw) (g : FrameRecord) (more : List FrameRecord) (c : Cursor) :
    (l.entered g more c).commit.current = some sw.stream ∧ (l.entered g more c).commit.switch = none ∧
    (l.entered g more c).commit.cursor = some c ∧
    (l.entered g more c).commit.queue = { g with status := .playing } ::
      more.filter (fun x => !(decide (x.status = .queued) && decide (l.current = some x.stream))) := by
  have pending : (l.entered g more c).switch = some sw := hs
  rw [commit_eq pending]
  refine ⟨rfl, rfl, ?_, ?_⟩
  · refine if_neg fun gone => ?_
    obtain ⟨x, hx, playing⟩ := List.any_eq_true.mp gone
    obtain ⟨-, released⟩ := List.mem_filter.mp hx
    simp only [Bool.and_eq_true, decide_eq_true_iff, beq_iff_eq] at released playing
    rw [playing] at released
    cases released.1
  · rw [releaseWhere_queue]
    exact List.filter_cons_of_pos (by simp)

/-! ## The advance and the end of a frame (R98 to R102, R122) -/

/-- The cursor a step on. -/
def Cursor.stepped (c : Cursor) (step : Nat) : Cursor :=
  { index := c.index + (c.frac + step) / 2 ^ 24, frac := (c.frac + step) % 2 ^ 24 }

theorem frameGap_eq (f g : FrameRecord) : frameGap f g = (g.time - (f.time + BitVec.ofNat 48 (512 * f.samples))).toInt := by
  have span : sampleSpan f.samples = ((512 * f.samples : Nat) : Int) := by simp [sampleSpan]
  rw [frameGap, sdiff, FrameRecord.endTime, addTicks, span, BitVec.ofInt_natCast]

theorem skipOf_eq (gap : Int) : skipOf gap = if gap < -256 then ((-2 * gap + 512) / 1024).toNat else 0 := by
  have round : roundDiv (-gap) 512 = (-2 * gap + 512) / 1024 := by
    rw [roundDiv, show 2 * -gap + 512 = -2 * gap + 512 by ring]
    rfl
  rw [skipOf, round]

/-- The lane in the next frame `g` after the end of frame `f`, an overlap counted (R99). -/
def Lane.joined (l : Lane) (f g : FrameRecord) (c : Cursor) : Lane :=
  ({ l.releaseHead with
    counters := if frameGap f g < -256 then { l.counters with overlaps := min (l.counters.overlaps + 1) 65535 } else l.counters } :
      Lane).enterHead { index := (c.index - f.samples) + skipOf (frameGap f g), frac := c.frac }

section
variable (k : BlockKind) {step : Nat} {l : Lane} {f : FrameRecord} {rest : List FrameRecord} (hq : l.queue = f :: rest)

theorem advance_within {c : Cursor} (h : (c.stepped step).index < f.samples) :
    l.advance k step f c = { l with cursor := some (c.stepped step) } :=
  if_neg (Nat.not_le_of_lt h)

include hq

theorem advance_end {c : Cursor} (h : f.samples ≤ (c.stepped step).index) :
    l.advance k step f c = l.frameEnd k (rest.length + 1) (c.stepped step) := by
  refine (if_pos h).trans ?_
  rw [hq]
  rfl

theorem frameEnd_endMark (n : Nat) (c : Cursor) (he : f.endMark = true) :
    l.frameEnd k (n + 1) c = l.releaseHead.endStops k l.releaseHead.drain := by
  simp only [Lane.frameEnd, hq]
  exact if_pos he

theorem frameEnd_last (n : Nat) (c : Cursor) (he : f.endMark = false) (hr : rest = []) :
    l.frameEnd k (n + 1) c = l.releaseHead.endStops k l.releaseHead.starve := by
  simp only [Lane.frameEnd, hq, hr]
  exact if_neg (Bool.eq_false_iff.mp he)

variable {g : FrameRecord} {more : List FrameRecord} (hr : rest = g :: more)
include hr

theorem frameEnd_gap (n : Nat) (c : Cursor) (he : f.endMark = false) (gap : 256 < frameGap f g) :
    l.frameEnd k (n + 1) c = l.releaseHead.endStops k l.releaseHead.enterGap := by
  simp only [Lane.frameEnd, hq, hr]
  exact (if_neg (Bool.eq_false_iff.mp he)).trans (if_pos gap)

theorem frameEnd_joined (n : Nat) (c : Cursor) (he : f.endMark = false) (gap : frameGap f g ≤ 256) :
    l.frameEnd k (n + 1) c = if g.samples ≤ (c.index - f.samples) + skipOf (frameGap f g) then
        (l.joined f g c).frameEnd k n { index := (c.index - f.samples) + skipOf (frameGap f g), frac := c.frac }
      else l.joined f g c := by
  have counted : (if frameGap f g < -256 then l.releaseHead.countUp (fun n => { n with overlaps := satInc n.overlaps })
      else l.releaseHead) = ({ l.releaseHead with
        counters := if frameGap f g < -256 then { l.counters with overlaps := min (l.counters.overlaps + 1) 65535 } else l.counters } :
          Lane) := by
    have counters : l.releaseHead.counters = l.counters := by rw [(releaseHead_released l).frame]
    split
    · rw [Lane.countUp, counters]
      rfl
    · rw [← counters]
  simp only [Lane.frameEnd, hq, hr]
  refine (if_neg (Bool.eq_false_iff.mp he)).trans ((if_neg (Int.not_lt.mpr gap)).trans ?_)
  rw [counted]
  rfl

end

/-- In a block that is not a STOPPING one a frame end leaves the lane as the end has it (R100 to R102). -/
theorem endStops_other {k : BlockKind} (h : k ≠ .stop) (l m : Lane) : l.endStops k m = m := by
  cases k
  case stop => exact absurd rfl h
  all_goals rfl

/-- In a STOPPING block the cursor goes, and nothing else happens (R94). -/
theorem endStops_stop (l m : Lane) : l.endStops .stop m = { l with cursor := none } := rfl

theorem joined_queue {l : Lane} {f g : FrameRecord} {more : List FrameRecord} (hq : l.queue = f :: g :: more) (c : Cursor) :
    (l.joined f g c).queue ≠ [] ∧ (l.joined f g c).queue.length ≤ more.length + 1 := by
  have head : ∀ n : PlayCounters, ({ l.releaseHead with counters := n } : Lane).queue = g :: more := fun n =>
    (releaseHead_queue l).trans (by rw [hq]; rfl)
  refine ⟨enterHead_queue _ (by rw [head]; exact List.cons_ne_nil _ _), ?_⟩
  have kept := (enterHead_played ({ l.releaseHead with counters := if frameGap f g < -256 then
    { l.counters with overlaps := min (l.counters.overlaps + 1) 65535 } else l.counters } : Lane)
    { index := (c.index - f.samples) + skipOf (frameGap f g), frac := c.frac }).queue
  rwa [head] at kept

/-! ## A run of positions (R121 to R125) -/

/-- What a lane sounds at a block position: 0 without a cursor, else the faded sample at it. -/
def Lane.heard (l : Lane) (store : Memory) (k : BlockKind) (step j : Nat) : Int × Int :=
  match l.cursor, l.queue with
  | some c, f :: rest =>
    (fade k j (positionSample store l f rest c step).1, fade k j (positionSample store l f rest c step).2)
  | _, _ => (0, 0)

theorem heard_sounding {l : Lane} {c : Cursor} {f : FrameRecord} {rest : List FrameRecord} (hc : l.cursor = some c)
    (hq : l.queue = f :: rest) (store : Memory) (k : BlockKind) (step j : Nat) :
    l.heard store k step j =
      (fade k j (positionSample store l f rest c step).1, fade k j (positionSample store l f rest c step).2) := by
  simp only [Lane.heard, hc, hq]

theorem heard_silent {l : Lane} (h : l.cursor = none ∨ l.queue = []) (store : Memory) (k : BlockKind) (step j : Nat) :
    l.heard store k step j = (0, 0) := by
  unfold Lane.heard
  rcases h with h | h
  · rw [h]
  · rw [h]
    cases l.cursor <;> rfl

theorem produce_sounding {l : Lane} {c : Cursor} {f : FrameRecord} {rest : List FrameRecord} (hc : l.cursor = some c)
    (hq : l.queue = f :: rest) (store : Memory) (k : BlockKind) (step n j : Nat) :
    produce store k step (n + 1) j l = ((produce store k step n (j + 1) (l.advance k step f c)).1,
      l.heard store k step j :: (produce store k step n (j + 1) (l.advance k step f c)).2) := by
  rw [heard_sounding hc hq]
  simp only [produce, hc, hq]

theorem produce_silent {l : Lane} (h : l.cursor = none ∨ l.queue = []) (store : Memory) (k : BlockKind) (step n j : Nat) :
    produce store k step (n + 1) j l =
      ((produce store k step n (j + 1) l).1, l.heard store k step j :: (produce store k step n (j + 1) l).2) := by
  rw [heard_silent h]
  rcases h with h | h
  · simp only [produce, h]
  · cases hc : l.cursor <;> simp only [produce, hc, h]

/-- A run of positions is a walk: each position sounds the lane there, and the next lane is its advance. -/
theorem produce_walk {store : Memory} {k : BlockKind} {step : Nat} (n j : Nat) (walk : Nat → Lane)
    (still : ∀ i, i < n → ((walk i).cursor = none ∨ (walk i).queue = []) → walk (i + 1) = walk i)
    (moves : ∀ i c f rest, i < n → (walk i).cursor = some c → (walk i).queue = f :: rest →
      walk (i + 1) = (walk i).advance k step f c) :
    produce store k step n j (walk 0) = (walk n, (List.range n).map fun i => (walk i).heard store k step (j + i)) := by
  induction n generalizing j walk with
  | zero => rfl
  | succ n ih =>
    have tail := ih (j + 1) (fun i => walk (i + 1)) (fun i hi => still (i + 1) (Nat.succ_lt_succ hi))
      (fun i c f rest hi => moves (i + 1) c f rest (Nat.succ_lt_succ hi))
    have later : ∀ i, j + 1 + i = j + (i + 1) := fun i => by omega
    simp only [later] at tail
    rw [List.range_succ_eq_map, List.map_cons, List.map_map]
    by_cases none_there : (walk 0).cursor = none ∨ (walk 0).queue = []
    · rw [produce_silent none_there, ← still 0 (Nat.succ_pos n) none_there, tail]
      rfl
    · obtain ⟨hc, hq⟩ := not_or.mp none_there
      obtain ⟨c, hc⟩ := Option.ne_none_iff_exists'.mp hc
      obtain ⟨f, rest, hq⟩ := List.exists_cons_of_ne_nil hq
      rw [produce_sounding hc hq, ← moves 0 c f rest (Nat.succ_pos n) hc hq, tail]
      rfl

end Sys2Proof.Machine

/-! The samples of a block that stays within one frame, and the phase steps (R112 to R114, R121 to R125). -/

namespace Sys2Proof.Machine

/-! ## The phase step (R112 to R114) -/

theorem plainStep_eq {t : Tracker} {step : Nat} (h : (step : Int) = 2 ^ 24 + (2 * t.q + 256) / 512) : plainStep t = step := by
  have sum : Config.unitStep + rateTerm t.q = (step : Int) := h.symm
  rw [plainStep, sum, Int.toNat_natCast]

theorem trimmedStep_eq {t : Tracker} {c : LaneConfig} {e : Int} {step : Nat} (h : (step : Int) =
    2 ^ 24 + (2 * t.q + 256) / 512 + max (-(c.trimMax : Int)) (min c.trimMax (e * 2 ^ (15 - c.gs)))) : trimmedStep t c e = step := by
  have sum : Config.unitStep + rateTerm t.q + trimTerm c e = (step : Int) := h.symm
  rw [trimmedStep, sum, Int.toNat_natCast]

/-! ## The cursor as a count of 2^-24 samples -/

/-- The cursor at a count of 2^-24 samples into its frame. -/
def cursorOf (n : Nat) : Cursor := { index := n / 2 ^ 24, frac := n % 2 ^ 24 }

theorem cursorOf_stepped (n step : Nat) : (cursorOf n).stepped step = cursorOf (n + step) := by
  simp only [cursorOf, Cursor.stepped, Cursor.mk.injEq]
  omega

theorem cursorOf_position {c : Cursor} (h : c.frac < 2 ^ 24) : cursorOf (c.index * 2 ^ 24 + c.frac) = c := by
  cases c
  simp only [cursorOf, Cursor.mk.injEq] at h ⊢
  omega

/-! ## Positions within one frame (R121) -/

/-- The sample of a channel at position `p` of a run that began at `start`, interpolated between the two samples around it. -/
def sampleWithin (store : Memory) (c : LaneConfig) (f : FrameRecord) (start step p ch : Nat) : Int :=
  let at_ := start + p * step
  let x0 := (store.read (c.wordAt (f.offset + at_ / 2 ^ 24 * f.channels + ch))).toInt
  let x1 := (store.read (c.wordAt (f.offset + (at_ / 2 ^ 24 + 1) * f.channels + ch))).toInt
  x0 + (x1 - x0) * ((at_ % 2 ^ 24 / 256 : Nat) : Int) / 65536

theorem channelSample_next (store : Memory) (l : Lane) {f : FrameRecord} (rest : List FrameRecord) {c : Cursor}
    (h : c.index + 1 < f.samples) (step ch : Nat) :
    channelSample store l f rest c step ch =
      interpolate (frameSample store l.config f c.index ch) (frameSample store l.config f (c.index + 1) ch) c.frac := by
  unfold channelSample
  dsimp only
  rw [if_pos h]

theorem channelSample_within (store : Memory) (l : Lane) (f : FrameRecord) (rest : List FrameRecord) {start step p : Nat}
    (h : (start + p * step) / 2 ^ 24 + 1 < f.samples) (ch : Nat) :
    channelSample store l f rest (cursorOf (start + p * step)) step ch = sampleWithin store l.config f start step p ch :=
  channelSample_next store l rest (c := cursorOf (start + p * step)) h step ch

theorem positionSample_within (store : Memory) (l : Lane) (f : FrameRecord) (rest : List FrameRecord) {start step p : Nat}
    (h : (start + p * step) / 2 ^ 24 + 1 < f.samples) :
    positionSample store l f rest (cursorOf (start + p * step)) step =
      (sampleWithin store l.config f start step p 0, sampleWithin store l.config f start step p (if l.config.channels = 1 then 0 else 1)) := by
  unfold positionSample
  rw [channelSample_within store l f rest h, channelSample_within store l f rest h]
  split <;> rfl

/-- A run that stays within one frame: its samples, and the cursor that every position advances by the step. -/
theorem produce_within (store : Memory) (k : BlockKind) {step n start : Nat} (j : Nat) {l : Lane} {f : FrameRecord}
    {rest : List FrameRecord} (hq : l.queue = f :: rest) (hc : l.cursor = some (cursorOf start)) (hstep : 0 < step)
    (inside : start + n * step ≤ (f.samples - 1) * 2 ^ 24) :
    produce store k step n j l =
      ({ l with cursor := some (cursorOf (start + n * step)) }, (List.range n).map fun p =>
        (fade k (j + p) (sampleWithin store l.config f start step p 0),
          fade k (j + p) (sampleWithin store l.config f start step p (if l.config.channels = 1 then 0 else 1)))) := by
  have before : ∀ p, p < n → start + p * step < (f.samples - 1) * 2 ^ 24 := fun p hp =>
    lt_of_lt_of_le (Nat.add_lt_add_left (Nat.mul_lt_mul_of_pos_right hp hstep) start) inside
  have next : ∀ p, p < n → (start + p * step) / 2 ^ 24 + 1 < f.samples := fun p hp => by
    have := (Nat.div_lt_iff_lt_mul (by decide : 0 < 2 ^ 24)).mpr (before p hp)
    omega
  have start_zero : ({ l with cursor := some (cursorOf (start + 0 * step)) } : Lane) = l := by
    rw [Nat.zero_mul, Nat.add_zero, ← hc]
  have run := produce_walk (store := store) (k := k) (step := step) n j
    (fun i => { l with cursor := some (cursorOf (start + i * step)) }) (fun i _ h => ?_) (fun i c g more hi h hg => ?_)
  · rw [start_zero] at run
    rw [run]
    refine congrArg (Prod.mk _) (List.map_congr_left fun p hp => ?_)
    refine (heard_sounding (l := { l with cursor := some (cursorOf (start + p * step)) }) rfl hq store k step (j + p)).trans ?_
    rw [positionSample_within store _ f rest (next p (List.mem_range.mp hp))]
  · exact absurd h (not_or.mpr ⟨nofun, by rw [show ({ l with cursor := _ } : Lane).queue = f :: rest from hq]; exact List.cons_ne_nil _ _⟩)
  · obtain rfl := Option.some.inj h
    obtain rfl : f = g := (List.cons.inj (hq.symm.trans hg)).1
    have far : start + (i + 1) * step ≤ (f.samples - 1) * 2 ^ 24 :=
      (Nat.add_le_add_left (Nat.mul_le_mul_right step hi) start).trans inside
    have more_samples := next i hi
    rw [advance_within k]
    · rw [cursorOf_stepped, Nat.add_assoc, ← Nat.succ_mul]
    · rw [cursorOf_stepped, Nat.add_assoc, ← Nat.succ_mul]
      have := Nat.div_le_of_le_mul (far.trans_eq (Nat.mul_comm _ _))
      change (start + (i + 1) * step) / 2 ^ 24 < f.samples
      omega

end Sys2Proof.Machine

/-! A lane in STOPPING (R94, R114, R124): the block of its boundary, the frame ends within it, and the completed stop. -/

namespace Sys2Proof.Machine

/-! ## What a STOPPING block leaves alone (R94) -/

/-- STARVED and DRAINED, the starvations and the gaps, and the halt choice are as before. -/
structure Undisturbed (l m : Lane) : Prop where
  flags : m.flags &&& 0x60 = l.flags &&& 0x60
  starvations : m.counters.starvations = l.counters.starvations
  gaps : m.counters.gaps = l.counters.gaps
  halt : m.halt = l.halt

theorem Undisturbed.of_same {l m : Lane} (hf : m.flags = l.flags) (hc : m.counters = l.counters) (hh : m.halt = l.halt) :
    Undisturbed l m := ⟨by rw [hf], by rw [hc], by rw [hc], hh⟩

theorem Undisturbed.refl (l : Lane) : Undisturbed l l := .of_same rfl rfl rfl

theorem Undisturbed.trans {l m n : Lane} (h : Undisturbed l m) (k : Undisturbed m n) : Undisturbed l n :=
  ⟨k.flags.trans h.flags, k.starvations.trans h.starvations, k.gaps.trans h.gaps, k.halt.trans h.halt⟩

theorem releaseHead_undisturbed (l : Lane) : Undisturbed l l.releaseHead := by
  rw [(releaseHead_released l).frame]
  exact .of_same rfl rfl rfl

theorem commit_undisturbed (l : Lane) : Undisturbed l l.commit := by
  rw [commit_frame]
  exact .of_same rfl rfl rfl

/-- The marks that a mask does not meet. -/
theorem flags_masked {flags mask : Byte} (h : mask &&& 0x60 = 0) : (flags ||| mask) &&& 0x60 = flags &&& 0x60 := by
  rw [BitVec.and_or_distrib_right, h]
  exact BitVec.or_zero

theorem watermark_undisturbed {l : Lane} (hd : l.config.direction = .play) (before : Nat) : Undisturbed l (l.watermark before) := by
  refine ⟨?_, by rw [watermark_frame], by rw [watermark_frame], by rw [watermark_frame]⟩
  rw [watermark_eq l before hd]
  dsimp only
  rw [flags_masked (by split <;> decide), flags_masked (by split <;> decide)]

theorem entered_undisturbed (l : Lane) (g : FrameRecord) (more : List FrameRecord) (c : Cursor) : Undisturbed l (l.entered g more c) :=
  ⟨flags_masked (by split <;> decide), rfl, rfl, rfl⟩

theorem enterHead_undisturbed {l : Lane} {g : FrameRecord} {more : List FrameRecord} (hq : l.queue = g :: more) (c : Cursor) :
    Undisturbed l (l.enterHead c) := by
  by_cases begins : ∃ sw, l.switch = some sw ∧ sw.stream = g.stream ∧ g.status ≠ .playing
  · obtain ⟨sw, hs, same, fresh⟩ := begins
    rw [enterHead_commits hq c hs same fresh]
    exact (entered_undisturbed l g more c).trans (commit_undisturbed _)
  · rw [enterHead_entered hq c fun sw hs => by_contra fun h => begins ⟨sw, hs, not_not.mp (not_or.mp h).1, (not_or.mp h).2⟩]
    exact entered_undisturbed l g more c

theorem joined_undisturbed {l : Lane} {f g : FrameRecord} {more : List FrameRecord} (hq : l.queue = f :: g :: more) (c : Cursor) :
    Undisturbed l (l.joined f g c) := by
  have counted : Undisturbed l { l.releaseHead with
      counters := if frameGap f g < -256 then { l.counters with overlaps := min (l.counters.overlaps + 1) 65535 } else l.counters } := by
    have released := releaseHead_undisturbed l
    refine ⟨released.flags, ?_, ?_, released.halt⟩ <;> dsimp only <;> split <;> rfl
  refine counted.trans (enterHead_undisturbed (g := g) (more := more) ?_ _)
  exact (releaseHead_queue l).trans (by rw [hq]; rfl)

theorem frameEnd_undisturbed (n : Nat) (c : Cursor) (l : Lane) : Undisturbed l (l.frameEnd .stop n c) := by
  induction n generalizing c l with
  | zero => exact .refl l
  | succ n ih =>
    have stopped : Undisturbed l { l.releaseHead with cursor := none } :=
      (releaseHead_undisturbed l).trans (.of_same rfl rfl rfl)
    cases hq : l.queue with
    | nil =>
      simp only [Lane.frameEnd, hq]
      exact .of_same rfl rfl rfl
    | cons f rest =>
      cases he : f.endMark with
      | true => rwa [frameEnd_endMark .stop hq n c he]
      | false =>
        cases hr : rest with
        | nil => rwa [frameEnd_last .stop hq n c he hr]
        | cons g more =>
          by_cases gap : 256 < frameGap f g
          · rwa [frameEnd_gap .stop hq hr n c he gap]
          · rw [frameEnd_joined .stop hq hr n c he (Int.not_lt.mp gap)]
            have joined := joined_undisturbed (by rw [hq, hr]) (f := f) (g := g) (more := more) c
            split
            · exact joined.trans (ih _ _)
            · exact joined

theorem advance_undisturbed (step : Nat) (l : Lane) (f : FrameRecord) (c : Cursor) : Undisturbed l (l.advance .stop step f c) := by
  unfold Lane.advance
  dsimp only
  split
  · exact frameEnd_undisturbed _ _ _
  · exact .of_same rfl rfl rfl

theorem produce_undisturbed (store : Memory) (step n j : Nat) (l : Lane) : Undisturbed l (produce store .stop step n j l).1 := by
  induction n generalizing j l with
  | zero => exact .refl l
  | succ n ih =>
    by_cases none_there : l.cursor = none ∨ l.queue = []
    · rw [produce_silent none_there]
      exact ih _ _
    · obtain ⟨hc, hq⟩ := not_or.mp none_there
      obtain ⟨c, hc⟩ := Option.ne_none_iff_exists'.mp hc
      obtain ⟨f, rest, hq⟩ := List.exists_cons_of_ne_nil hq
      rw [produce_sounding hc hq]
      exact (advance_undisturbed step l f c).trans (ih _ _)

/-! ## The block (R94, R114) -/

section
variable {env : BoundaryEnv} {l : Lane} {h : Halt} (hh : l.halt = some h)
include hh

/-- Without a fade source, a cursor or permission the block is silent. -/
theorem stoppingBlock_silent (hs : h.fromCursor = false ∨ l.cursor = none ∨ env.permittedTarget l = none) :
    l.stoppingBlock env = (l, silence) := by
  unfold Lane.stoppingBlock
  rw [hh]
  cases hc : l.cursorContent with
  | none => rfl
  | some content =>
    cases hp : env.permittedTarget l with
    | none => rfl
    | some t =>
      rcases hs with off | gone | refused
      · exact if_neg (Bool.eq_false_iff.mp off)
      · rw [cursorContent_none.mpr (.inl gone)] at hc
        cases hc
      · rw [hp] at refused
        cases refused

/-- With them it is a trimmed block, and error and step are recorded (R113, R114). -/
theorem stoppingBlock_fades {content t : Time} (hs : h.fromCursor = true) (hc : l.cursorContent = some content)
    (hp : env.permittedTarget l = some t) {e : Int} (he : e = (t - content).toInt) {step : Nat}
    (hstep : trimmedStep env.tracker l.config e = step) :
    l.stoppingBlock env = produce env.store .stop step 64 0 { l with lastError := some e, lastStep := some step } := by
  subst he hstep
  unfold Lane.stoppingBlock
  rw [hh, hc, hp]
  exact if_pos hs

end

theorem produceBlock_undisturbed (store : Memory) (step : Nat) (l : Lane) : Undisturbed l (l.produceBlock store .stop step).1 :=
  Undisturbed.trans (m := { l with lastStep := some step }) (.of_same rfl rfl rfl) (produce_undisturbed _ _ _ _ _)

theorem stoppingBlock_undisturbed (env : BoundaryEnv) (l : Lane) : Undisturbed l (l.stoppingBlock env).1 := by
  unfold Lane.stoppingBlock
  split
  · split
    · refine Undisturbed.trans ?_ (produceBlock_undisturbed _ _ _)
      exact .of_same rfl rfl rfl
    · exact .refl l
  · exact .refl l

/-! ## The completed stop (R94) -/

/-- A lane as a stop leaves it, but for its flush. -/
def Lane.stopped (l : Lane) : Lane :=
  { l with
    state := .stopped
    cursor := none
    aim := .absent
    halt := none
    slipMark := none
    queue := l.queue.map (fun f => if f.status = .playing then { f with status := .queued } else f) }

theorem completeStop_eq {l : Lane} {h : Halt} (hh : l.halt = some h) :
    l.completeStop = if h.flush = true then l.stopped.releaseWhere (fun _ => true) else l.stopped := by
  have flush : ((l.halt.map Halt.flush).getD false) = h.flush := by rw [hh]; rfl
  unfold Lane.completeStop
  dsimp only
  rw [flush]
  split
  · exact (releaseWhere_stopFields l.discardCursor _ .stopped .absent none none).symm
  · rfl

/-- What a completed stop has stopped, and what it leaves. -/
theorem completeStop_stops {l : Lane} {h : Halt} (hh : l.halt = some h) :
    (l.completeStop.state = .stopped ∧ l.completeStop.cursor = none ∧ l.completeStop.aim = .absent ∧ l.completeStop.halt = none ∧
      l.completeStop.slipMark = none ∧ (h.flush = true → l.completeStop.queue = []) ∧
      ∀ f ∈ l.completeStop.queue, f.status ≠ .playing) ∧
    l.completeStop.flags = l.flags ∧ l.completeStop.counters = l.counters ∧ l.completeStop.config = l.config := by
  rw [completeStop_eq hh]
  cases hf : h.flush with
  | true =>
    have flushed : (l.stopped.releaseWhere fun _ => true).queue = [] := flushQueue_queue l.stopped
    have cursor : (l.stopped.releaseWhere fun _ => true).cursor = none := ite_self none
    rw [if_pos rfl, flushed, cursor, (releaseWhere_released l.stopped _).frame]
    exact ⟨⟨rfl, rfl, rfl, rfl, rfl, fun _ => rfl, nofun⟩, rfl, rfl, rfl⟩
  | false =>
    refine ⟨⟨rfl, rfl, rfl, rfl, rfl, nofun, fun f hf => ?_⟩, rfl, rfl, rfl⟩
    obtain ⟨g, -, rfl⟩ := List.mem_map.mp hf
    split
    · exact nofun
    · assumption

/-- The boundary's work of a STOPPING lane, no switch being due. -/
theorem boundaryWork_stopping {env : BoundaryEnv} {l m : Lane} {b : Block} (hd : l.config.direction = .play)
    (hst : l.state = .stopping) (ha : l.actions = []) (hs : l.switchDue (env.target l) = false)
    (block : l.stoppingBlock env = (m, b)) :
    l.boundaryWork env = { lane := m.completeStop.watermark l.buffered, block := b, outcomes := [] } := by
  have work : l.workState env = (m.completeStop, b) := by
    simp only [Lane.workState, hst, Lane.workStopping, block]
  rw [boundaryWork_state env l ha ((isPlay_iff l).mpr ⟨by rw [hst]; decide, hd⟩) hs, work]

/-- Settles O14: the stop, its block, and the frame ends within it. -/
theorem stoppingCompletes : Obligations.StoppingCompletes := by
  refine ⟨fun env l h hd hst hh ha => ⟨?_, fun n k allowed early hallowed hn => ⟨fun silent hk => ?_, ?_⟩⟩,
    fun step l f rest c d hq hd => ⟨fun within => ?_, fun ended stops => ?_, fun g more gap ended he hr hgap joined enters => ?_⟩⟩
  · obtain ⟨w, hw⟩ : ∃ w, w = if l.switchDue (env.target l) = true then l.commit else l := ⟨_, rfl⟩
    obtain ⟨state, config, kept⟩ : w.state = .stopping ∧ w.config = l.config ∧ Undisturbed l w := by
      rw [hw]
      split
      · have frame := commit_frame l
        exact ⟨by rw [frame, ← hst], by rw [frame], commit_undisturbed l⟩
      · exact ⟨hst, rfl, .refl l⟩
    have lane : (l.boundaryWork env).lane = (w.stoppingBlock env).1.completeStop.watermark l.buffered := by
      rw [boundaryWork_played env (cueStep_none env l ha) ((isPlay_iff l).mpr ⟨by rw [hst]; decide, hd⟩), ← hw]
      simp only [Lane.workState, state, Lane.workStopping]
    have block : Undisturbed l (w.stoppingBlock env).1 := kept.trans (stoppingBlock_undisturbed env w)
    have same : (w.stoppingBlock env).1.config = l.config := (stoppingBlock_played env w).config.trans config
    obtain ⟨stops, flags, counters, config⟩ := completeStop_stops (block.halt.trans hh)
    have marks := watermark_undisturbed (l := (w.stoppingBlock env).1.completeStop) (by rw [config, same, hd]) l.buffered
    obtain ⟨state, cursor, aim, halt, slip, flushed, idle⟩ := stops
    have frame := watermark_frame (w.stoppingBlock env).1.completeStop l.buffered
    rw [lane]
    refine ⟨?_, ?_, ?_, ?_, ?_, fun f => ?_, ?_, ?_, ?_, ?_⟩
    · rw [frame, state]
    · rw [frame, cursor]
    · rw [frame, aim]
    · rw [frame, halt]
    · rw [frame, slip]
    · rw [frame, flushed f]
    · rw [frame]
      exact idle
    · rw [marks.flags, flags, block.flags]
    · rw [marks.starvations, counters, block.starvations]
    · rw [marks.gaps, counters, block.gaps]
  · have block : l.stoppingBlock env = (l, silence) := by
      refine stoppingBlock_silent hh (silent.imp_right (.imp_right fun refused => ?_))
      exact permittedTarget_refused (Bool.eq_false_iff.mpr fun e => refused (hallowed.mpr ((permitted_iff _ _).mp e)))
    have lane : l.completeStop = k := by
      rw [completeStop_eq hh, hk, hn]
      rfl
    rw [boundaryWork_stopping hd hst ha (switchDue_stays early) block, lane]
    exact ⟨rfl, rfl⟩
  · intro f rest step start c e house t value source perm hhouse ht hc hq hfrac hstart he positive inside hstep hvalue hk
    have granted := permittedTarget_of_policy (hallowed.mp perm) hhouse ht
    have block := stoppingBlock_fades hh source (cursorContent_some hc hq) granted he (trimmedStep_eq hstep)
    have placed : l.cursor = some (cursorOf start) := by rw [hc, hstart, cursorOf_position hfrac]
    rw [produce_within env.store .stop 0 (l := { l with lastError := some e, lastStep := some step }) hq placed positive inside] at block
    have lane : ({ l with lastError := some e, lastStep := some step, cursor := some (cursorOf (start + 64 * step)) } :
        Lane).completeStop = k := by
      refine (completeStop_eq (l := { l with
        lastError := some e, lastStep := some step, cursor := some (cursorOf (start + 64 * step)) }) hh).trans ?_
      rw [hk, hn]
      rfl
    rw [boundaryWork_stopping hd hst ha (switchDue_stays early) block, lane]
    refine ⟨rfl, List.map_congr_left fun p _ => ?_⟩
    simp only [hvalue, Nat.zero_add]
    rfl
  · rw [hd] at within ⊢
    exact advance_within .stop within
  · rw [hd] at ended
    rw [advance_end .stop hq ended]
    cases he : f.endMark with
    | true => rw [frameEnd_endMark .stop hq _ _ he, endStops_stop]
    | false =>
      rcases stops with mark | last | ⟨g, more, hr, gap⟩
      · rw [he] at mark
        cases mark
      · rw [frameEnd_last .stop hq _ _ he last, endStops_stop]
      · rw [frameEnd_gap .stop hq hr _ _ he (by rw [frameGap_eq]; exact gap), endStops_stop]
  · rw [hd] at ended enters
    rw [← frameGap_eq] at hgap
    rw [hgap] at joined enters
    rw [← skipOf_eq] at enters
    have inside : ¬ g.samples ≤ (c.stepped step).index - f.samples + skipOf (frameGap f g) := Nat.not_le_of_lt enters
    rw [advance_end .stop hq ended, advance_end .trim hq ended, frameEnd_joined .stop hq hr _ _ he joined,
      frameEnd_joined .trim hq hr _ _ he joined, if_neg inside, if_neg inside]

end Sys2Proof.Machine

/-! Start alignment (R95, R96, R118): the start position, and the late drops and slip drops at the head of the queue. -/

namespace Sys2Proof.Machine

/-! ## The start position (R95) -/

theorem alignForm_past {aim target : Time} (h : (aim - target).toInt ≤ 0) : alignForm aim target = some (0, target) :=
  if_neg fun e => absurd (of_decide_eq_true e) (Int.not_lt.mpr h)

theorem alignForm_future {aim target : Time} (h : 0 < (aim - target).toInt) :
    alignForm aim target = if 64 ≤ ceilDiv (aim - target).toInt 512 then none
      else some ((ceilDiv (aim - target).toInt 512).toNat, addTicks target (ceilDiv (aim - target).toInt 512 * 512)) :=
  if_pos (decide_eq_true h)

/-- An aim ahead of the target is met within a sample period by the position that its distance gives. -/
theorem alignForm_reached {aim target : Time} (h0 : 0 < (aim - target).toInt) (h1 : (aim - target).toInt ≤ 63 * 512) :
    ∃ j0 c0, alignForm aim target = some (j0, c0) ∧ 1 ≤ j0 ∧ j0 ≤ 63 ∧ c0 = target + BitVec.ofNat 48 (j0 * 512) ∧
      0 ≤ (c0 - aim).toInt ∧ (c0 - aim).toInt < 512 := by
  obtain ⟨j0, hj⟩ : ∃ j0 : Nat, ceilDiv (aim - target).toInt 512 = j0 :=
    Int.eq_ofNat_of_zero_le (by rw [ceilDiv]; omega)
  have bounds : 1 ≤ j0 ∧ j0 ≤ 63 ∧ (aim - target).toInt ≤ j0 * 512 ∧ (j0 : Int) * 512 < (aim - target).toInt + 512 := by
    rw [ceilDiv] at hj
    omega
  obtain ⟨positive, low, notBefore, near⟩ := bounds
  have ahead : (target + BitVec.ofNat 48 (j0 * 512) - aim).toInt = j0 * 512 - (aim - target).toInt := by
    have difference : target + BitVec.ofNat 48 (j0 * 512) - aim = BitVec.ofInt 48 ((j0 * 512 : Nat) : Int) - (aim - target) := by
      rw [BitVec.ofInt_natCast]
      ring
    rw [difference, BitVec.toInt_sub, BitVec.toInt_ofInt, Int.bmod_eq_of_le (n := ((j0 * 512 : Nat) : Int)) (by omega) (by omega),
      Int.bmod_eq_of_le (by push_cast; omega) (by push_cast; omega)]
    push_cast
    rfl
  refine ⟨j0, target + BitVec.ofNat 48 (j0 * 512), ?_, positive, low, rfl, by rw [ahead]; omega, by rw [ahead]; omega⟩
  rw [alignForm_future h0, hj, if_neg (by omega), Int.toNat_natCast, addTicks, ← BitVec.ofInt_natCast]
  push_cast
  rfl

theorem alignForm_waits {aim target : Time} (h : 63 * 512 < (aim - target).toInt) : alignForm aim target = none := by
  rw [alignForm_future (by omega), if_pos (by rw [ceilDiv]; omega)]

/-! ## Late drops and slip drops (R96, R118) -/

theorem iterate_releaseHead_queue (k : Nat) (l : Lane) : (Lane.releaseHead^[k] l).queue = l.queue.drop k := by
  induction k with
  | zero => rfl
  | succ k ih => rw [Function.iterate_succ_apply', releaseHead_queue, ih, List.tail_drop]

theorem releaseHead_counters (m : Lane) (n : PlayCounters) :
    ({ m with counters := n } : Lane).releaseHead = { m.releaseHead with counters := n } := by
  cases h : m.queue <;> simp only [Lane.releaseHead, h, Lane.releaseAlloc]

/-- The counter of `k` drops: late ones, or slip ones while the lane has a slip mark. -/
def Lane.dropCount (l : Lane) (k : Nat) : PlayCounters :=
  if l.slipMark = none then { l.counters with lateDrops := min (l.counters.lateDrops + k) 65535 }
  else { l.counters with slipDrops := min (l.counters.slipDrops + k) 65535 }

theorem iterate_dropHead (k : Nat) {l : Lane} (late : l.counters.lateDrops ≤ 65535) (slip : l.counters.slipDrops ≤ 65535) :
    Lane.dropHead^[k] l = { Lane.releaseHead^[k] l with counters := l.dropCount k } := by
  induction k with
  | zero =>
    have none_dropped : l.dropCount 0 = l.counters := by
      unfold Lane.dropCount
      rw [Nat.min_eq_left (by omega), Nat.min_eq_left (by omega)]
      split <;> rfl
    rw [none_dropped]
    rfl
  | succ k ih =>
    have mark : (Lane.releaseHead^[k] l).releaseHead.slipMark = l.slipMark := by
      rw [← Function.iterate_succ_apply' Lane.releaseHead, (iterate_releaseHead_frame (k + 1) l).1]
    have before : (Lane.releaseHead^[k] l).slipMark = l.slipMark := by rw [(iterate_releaseHead_frame k l).1]
    rw [Function.iterate_succ_apply', Function.iterate_succ_apply', ih, Lane.dropHead, releaseHead_counters]
    unfold Lane.countUp Lane.dropCount
    dsimp only
    rw [before]
    cases l.slipMark with
    | none =>
      have counter : satInc (min (l.counters.lateDrops + k) 65535) = min (l.counters.lateDrops + (k + 1)) 65535 := by
        simp only [satInc]
        omega
      simp [counter]
    | some m =>
      have counter : satInc (min (l.counters.slipDrops + k) 65535) = min (l.counters.slipDrops + (k + 1)) 65535 := by
        simp only [satInc]
        omega
      simp [counter]

/-- The heads that end by a content time are dropped, one after another. -/
theorem dropLate_iterate (c0 : Time) (n : Nat) (l : Lane) (hn : l.queue.length ≤ n) :
    l.dropLate c0 n = Lane.dropHead^[(l.queue.takeWhile (fun f => decide ((f.endTime - c0).toInt ≤ 0))).length] l := by
  induction n generalizing l with
  | zero =>
    rw [List.length_eq_zero_iff.mp (Nat.le_zero.mp hn)]
    rfl
  | succ n ih =>
    cases hq : l.queue with
    | nil =>
      simp only [Lane.dropLate, hq]
      rfl
    | cons f rest =>
      have rests : l.dropHead.queue = rest := (releaseHead_queue l).trans (by rw [hq]; rfl)
      simp only [Lane.dropLate, hq]
      by_cases ends : (f.endTime - c0).toInt ≤ 0
      · have early : ¬ later f.endTime c0 = true := fun e => absurd (of_decide_eq_true e) (Int.not_lt.mpr ends)
        rw [if_neg early, List.takeWhile_cons_of_pos (p := fun f : FrameRecord => decide ((f.endTime - c0).toInt ≤ 0)) (decide_eq_true ends), List.length_cons, Function.iterate_succ_apply,
          ih l.dropHead (by rw [rests]; rw [hq] at hn; exact Nat.le_of_succ_le_succ hn), rests]
      · have stays : later f.endTime c0 = true := decide_eq_true (Int.not_le.mp ends)
        rw [if_pos stays, List.takeWhile_cons_of_neg (by rw [decide_eq_true_iff]; exact ends)]
        rfl

theorem drop_takeWhile {α : Type} (p : α → Bool) (as : List α) : as.drop (as.takeWhile p).length = as.dropWhile p := by
  have split : as.drop (as.takeWhile p).length = (as.takeWhile p ++ as.dropWhile p).drop (as.takeWhile p).length := by
    rw [List.takeWhile_append_dropWhile]
  rw [split, List.drop_left]

/-- Settles O10: the start position of an aim, and the heads that an alignment drops. -/
theorem startAlignmentFormsAndDrops : Obligations.StartAlignmentFormsAndDrops := by
  refine ⟨fun aim target => ⟨alignForm_past, alignForm_reached, alignForm_waits⟩, fun c0 l m dropped hm hdropped late slip => ?_⟩
  rw [dropLate_iterate c0 _ l (le_refl _), ← hdropped, iterate_dropHead _ late slip] at hm
  obtain ⟨frame, -⟩ := iterate_releaseHead_frame dropped l
  refine ⟨?_, hm, ?_⟩
  · rw [hm]
    exact (iterate_releaseHead_queue dropped l).trans (by rw [hdropped, drop_takeWhile])
  · rw [hm, frame]
    exact ⟨rfl, rfl, rfl, rfl, rfl, rfl, rfl⟩

end Sys2Proof.Machine

/-! A PLAY lane with permission (R89 to R93, R95 to R97, R109 to R118): waiting, starting, trimming and slipping. -/

namespace Sys2Proof.Machine

/-! ## What an alignment comes to (R95, R96) -/

section
variable {l n : Lane} {target aim c0 : Time} {j0 : Nat}

theorem align_waits (h : alignForm aim target = none) : l.align target aim = .waits l := by
  simp only [Lane.align, h]

variable (h : alignForm aim target = some (j0, c0)) (hn : n = l.dropLate c0 l.queue.length)
include h hn

theorem align_emptied (hq : n.queue = []) : l.align target aim = .emptied { n with cursor := none } := by
  subst hn
  simp only [Lane.align, h, hq]

variable {f : FrameRecord} {rest : List FrameRecord} (hq : n.queue = f :: rest)
include hq

theorem align_next_waits (hl : 0 < (f.time - c0).toInt) (hf : alignForm f.time target = none) :
    l.align target aim = .waits { n with aim := .frame } := by
  subst hn
  simp only [Lane.align, h, hq]
  refine (if_pos (decide_eq_true hl)).trans ?_
  rw [hf]

/-- The lane is placed in the frame at the head: at the aim's content, or at the frame's own where that begins later. -/
theorem align_placed_at {j : Nat} {c : Time} (hj : ((f.time - c0).toInt ≤ 0 ∧ j = j0 ∧ c = c0) ∨
    (0 < (f.time - c0).toInt ∧ alignForm f.time target = some (j, c))) :
    l.align target aim = .placed (n.enterHead (cursorAt f c)) j := by
  subst hn
  simp only [Lane.align, h, hq]
  rcases hj with ⟨head, rfl, rfl⟩ | ⟨later, hf⟩
  · exact if_neg fun e => absurd (of_decide_eq_true e) (Int.not_lt.mpr head)
  · refine (if_pos (decide_eq_true later)).trans ?_
    rw [hf]

end

/-- A late drop moves the ring, the queue, the cursor and the counters. -/
theorem dropLate_frame (c0 : Time) (n : Nat) (l : Lane) : l.dropLate c0 n = { l with
    allocs := (l.dropLate c0 n).allocs, reclaimOffset := (l.dropLate c0 n).reclaimOffset, queue := (l.dropLate c0 n).queue,
    cursor := (l.dropLate c0 n).cursor, counters := (l.dropLate c0 n).counters } := by
  induction n generalizing l with
  | zero => rfl
  | succ n ih =>
    unfold Lane.dropLate
    split
    · rfl
    · split
      · rfl
      · refine (ih l.dropHead).trans ?_
        have head : l.dropHead = { l with
            allocs := l.dropHead.allocs, reclaimOffset := l.dropHead.reclaimOffset, queue := l.dropHead.queue,
            cursor := l.dropHead.cursor, counters := l.dropHead.counters } :=
          congrArg (fun m : Lane => { m with counters := l.dropHead.counters }) (releaseHead_released l).frame
        generalize l.dropHead = m at head
        rw [head]

/-! ## A lane that aligns (R89 to R92, R117) -/

/-- The work that follows an alignment; a lane in ARMED that finds no frame left stays, and another is STARVED (R89, R90). -/
def AlignResult.work (env : BoundaryEnv) (armed : Bool) : AlignResult → Lane × Block
  | .waits l => (l, silence)
  | .emptied l => (if armed then l else l.starve, silence)
  | .placed l j0 => l.startBlock env j0

/-- At a boundary with target `t` the lane `l` aligns as `m` to an aim content time. -/
def Lane.AlignsTo (l : Lane) (t aim : Time) (m : Lane) : Prop :=
  (∃ g more, l.queue = g :: more ∧ aim = g.time ∧
      ((l.state = .armed ∧ m = l) ∨ (l.state = .bridging ∧ l.aim = .frame ∧ m = l) ∨
        (l.state = .starved ∧ m = { l with state := .bridging, aim := .frame }))) ∨
    (∃ a, l.state = .bridging ∧ l.aim = .time a ∧ aim = (if l.slipMark = some .behind then t else a) ∧
      m = { l with aim := .time aim }) ∨
    (∃ g more c, l.state = .held ∧ l.queue = g :: more ∧ l.cursor = some c ∧
      aim = (if l.slipMark = some .behind then t else g.time + BitVec.ofNat 48 (512 * c.index + c.frac / 2 ^ 15)) ∧
      m = { l with state := .bridging, aim := .time aim })

theorem Lane.AlignsTo.frame {l m : Lane} {t aim : Time} (h : l.AlignsTo t aim m) : m = { l with state := m.state, aim := m.aim } := by
  rcases h with ⟨g, more, -, -, ⟨-, rfl⟩ | ⟨-, -, rfl⟩ | ⟨-, rfl⟩⟩ | ⟨a, -, -, -, rfl⟩ | ⟨g, more, c, -, -, -, -, rfl⟩ <;> rfl

theorem Lane.AlignsTo.on {l m : Lane} {t aim : Time} (h : l.AlignsTo t aim m) : l.state ≠ .off := by
  rcases h with ⟨g, more, -, -, ⟨h, -⟩ | ⟨h, -⟩ | ⟨h, -⟩⟩ | ⟨a, h, -⟩ | ⟨g, more, c, h, -⟩ <;> rw [h] <;> decide

theorem refreshAim_time {l : Lane} {a : Time} (h : l.aim = .time a) (t : Time) :
    l.refreshAim t = { l with aim := .time (if l.slipMark = some .behind then t else a) } := by
  simp only [Lane.refreshAim, h]
  split
  · rfl
  · rw [← h]

theorem refreshAim_other {l : Lane} (h : ∀ a, l.aim ≠ .time a) (t : Time) : l.refreshAim t = l := by
  cases ha : l.aim with
  | time a => exact absurd ha (h a)
  | frame => simp only [Lane.refreshAim, ha]
  | absent => simp only [Lane.refreshAim, ha]

section
variable {env : BoundaryEnv} {l : Lane} {t : Time} (hp : env.permittedTarget l = some t)
include hp

theorem workArmed_aligns {f : FrameRecord} {rest : List FrameRecord} (hq : l.queue = f :: rest) :
    l.workArmed env = (l.align t f.time).work env true := by
  simp only [Lane.workArmed, hp, hq]
  cases l.align t f.time <;> rfl

theorem workBridging_aligns {m : Lane} {a : Time} (hm : l.refreshAim t = m) (ha : m.aimTime = some a) :
    l.workBridging env = (m.align t a).work env false := by
  simp only [Lane.workBridging, hp, hm, ha]
  cases m.align t a <;> rfl

theorem workBridging_starves (hq : l.queue = []) (ha : ∀ a, l.aim ≠ .time a) : l.workBridging env = (l.starve, silence) := by
  have aimless : l.aimTime = none := by
    cases h : l.aim with
    | time a => exact absurd h (ha a)
    | frame => simp only [Lane.aimTime, h, hq]
    | absent => simp only [Lane.aimTime, h, hq]
  simp only [Lane.workBridging, hp, refreshAim_other ha, aimless]

theorem bridgeToHead_aligns {f : FrameRecord} {rest : List FrameRecord} (hq : l.queue = f :: rest) :
    l.bridgeToHead env = (({ l with state := .bridging, aim := .frame } : Lane).align t f.time).work env false := by
  refine workBridging_aligns (l := { l with state := .bridging, aim := .frame }) hp rfl ?_
  simp only [Lane.aimTime, hq]

/-- The work of a lane that aligns is what its alignment comes to. -/
theorem Lane.AlignsTo.work {m : Lane} {aim : Time} (h : l.AlignsTo t aim m) :
    l.workState env = (m.align t aim).work env (decide (l.state = .armed)) := by
  have other : ∀ {x : LaneState}, l.state = x → x ≠ .armed → decide (l.state = .armed) = false := fun hs hx =>
    decide_eq_false fun armed => hx (hs.symm.trans armed)
  rcases h with ⟨g, more, hq, rfl, ⟨hs, rfl⟩ | ⟨hs, ha, rfl⟩ | ⟨hs, rfl⟩⟩ | ⟨a, hs, ha, rfl, rfl⟩ | ⟨g, more, c, hs, hq, hc, haim, rfl⟩
  · rw [decide_eq_true hs, ← workArmed_aligns hp hq, Lane.workState, hs]
  · rw [other hs nofun, ← workBridging_aligns hp (refreshAim_other (by rw [ha]; exact nofun) t) (by simp only [Lane.aimTime, ha, hq]),
      Lane.workState, hs]
  · rw [other hs nofun, ← bridgeToHead_aligns hp hq, ← workStarved_frames env (by rw [hq]; exact List.cons_ne_nil _ _),
      Lane.workState, hs]
  · rw [other hs nofun, ← workBridging_aligns hp (refreshAim_time ha t) rfl, Lane.workState, hs]
  · have held : l.workHeld env = ({ l with
        state := .bridging, aim := .time (g.time + BitVec.ofNat 48 (512 * c.index + c.frac / 2 ^ 15)) } : Lane).workBridging env := by
      simp only [Lane.workHeld, cursorContent_some hc hq, hp]
    have aligned := workBridging_aligns (l := { l with
      state := .bridging, aim := .time (g.time + BitVec.ofNat 48 (512 * c.index + c.frac / 2 ^ 15)) }) hp (refreshAim_time rfl t) rfl
    rw [other hs nofun, haim, ← aligned, ← held, Lane.workState, hs]

end

/-! ## The start block (R97, R123) -/

/-- A lane as its start leaves it before its first sample. -/
def Lane.started (l : Lane) (step : Nat) : Lane :=
  { l with
    state := .playing
    aim := .absent
    slipMark := none
    lastStep := some step
    counters := { l.counters with starts := min (l.counters.starts + 1) 65535 }
    flags := l.flags ||| 0x80 }

theorem startBlock_eq {env : BoundaryEnv} {step : Nat} (h : plainStep env.tracker = step) (l : Lane) (j : Nat) :
    l.startBlock env j = ((produce env.store .start step (64 - j) j (l.started step)).1,
      List.replicate j (0, 0) ++ (produce env.store .start step (64 - j) j (l.started step)).2) := by
  rw [Lane.startBlock, h]
  rfl

theorem cursorAt_eq (f : FrameRecord) (c : Time) : cursorAt f c = cursorOf ((c - f.time).toInt.toNat * 2 ^ 15) := by
  simp only [cursorAt, cursorOf, sdiff, Cursor.mk.injEq]
  omega

/-! ## A PLAYING lane (R93, R110 to R116) -/

section
variable {env : BoundaryEnv} {l : Lane} {content t : Time} (hc : l.cursorContent = some content)
  (hp : env.permittedTarget l = some t) {e : Int} (he : e = (t - content).toInt) {step : Nat}
include hc hp he

theorem workPlaying_trims (small : e.natAbs ≤ l.config.slipLimit) (hstep : trimmedStep env.tracker l.config e = step) :
    l.workPlaying env = produce env.store .trim step 64 0 { l with lastError := some e, lastStep := some step } := by
  subst he hstep
  simp only [Lane.workPlaying, hc, hp]
  exact if_pos small

theorem workPlaying_slips (large : l.config.slipLimit < e.natAbs) (hstep : plainStep env.tracker = step) {m : Lane} {b : Block}
    (run : produce env.store .slip step 64 0 { l with
      lastError := some e
      lastStep := some step
      counters := { l.counters with slips := min (l.counters.slips + 1) 65535 }
      flags := l.flags ||| 0x04 } = (m, b)) : l.workPlaying env = (m.afterSlip t e, b) := by
  subst he hstep
  simp only [Lane.workPlaying, hc, hp]
  refine (if_neg (Nat.not_le_of_lt large)).trans ?_
  exact congrArg (fun r : Lane × Block => (r.1.afterSlip t _, r.2)) run

end

theorem afterSlip_gone {l : Lane} (h : l.cursor = none ∨ l.queue = []) (t : Time) (e : Int) : l.afterSlip t e = l := by
  simp only [Lane.afterSlip, cursorContent_none.mpr h]

theorem afterSlip_cursor {l : Lane} {d : Cursor} {g : FrameRecord} {more : List FrameRecord} (hc : l.cursor = some d)
    (hq : l.queue = g :: more) (t : Time) (e : Int) :
    l.afterSlip t e = { l with
      state := .bridging
      slipMark := some (if 0 < e then .behind else .ahead)
      aim := .time (if 0 < e then t + 32768 else g.time + BitVec.ofNat 48 (512 * d.index + d.frac / 2 ^ 15)) } := by
  simp only [Lane.afterSlip, cursorContent_some hc hq]
  split <;> rfl

/-! ## The obligation -/

theorem boundaryEnv_house (s : State) :
    s.boundaryEnv.house = s.tracker.house? (s.count + BitVec.ofNat 48 (33280 + s.ports.spa.latency)) := by
  rw [State.boundaryEnv, State.emissionHouse?, addTicks, BitVec.ofInt_natCast]
  rfl

/-- The start block of a lane placed in its head frame, where the block stays within that frame (R97, R121, R123). -/
theorem startBlock_within {env : BoundaryEnv} {n : Lane} {f : FrameRecord} {rest : List FrameRecord} {j len start step : Nat} {c : Time}
    (hq : n.queue = f :: rest) (hs : n.switch = none) (hj : j + len = 64) (positive : 0 < step)
    (hstep : (step : Int) = 2 ^ 24 + (2 * env.tracker.q + 256) / 512) (hstart : start = (c - f.time).toInt.toNat * 2 ^ 15)
    (inside : start + len * step ≤ (f.samples - 1) * 2 ^ 24) :
    (n.enterHead (cursorAt f c)).startBlock env j =
      ({ (n.entered f rest (cursorOf start)).started step with cursor := some (cursorOf (start + len * step)) },
        List.replicate j (0, 0) ++ (List.range len).map fun p =>
          (sampleWithin env.store n.config f start step p 0 * ((j : Int) + p + 1) / 64,
            sampleWithin env.store n.config f start step p (if n.config.channels = 1 then 0 else 1) * ((j : Int) + p + 1) / 64)) := by
  have placed : n.enterHead (cursorAt f c) = n.entered f rest (cursorOf start) := by
    rw [cursorAt_eq, ← hstart]
    exact enterHead_entered hq _ fun sw h => by rw [hs] at h; cases h
  have length : 64 - j = len := by omega
  rw [placed, startBlock_eq (plainStep_eq hstep), length,
    produce_within env.store .start j (l := (n.entered f rest (cursorOf start)).started step) rfl rfl positive inside]
  refine congrArg (fun b => (_, List.replicate j (0, 0) ++ b)) (List.map_congr_left fun p _ => ?_)
  simp only [fade, Nat.cast_add]
  rfl

/-- Settles O11: the work of a PLAY lane with permission, by its state. -/
theorem playingTrimsSlipsAndRealigns : Obligations.PlayingTrimsSlipsAndRealigns := by
  refine ⟨boundaryEnv_house, ?_⟩
  intro env l starved h t silent value moved hd ha hs perm hh ht hsilent hstarved hvalue hmoved
  have granted := permittedTarget_of_policy perm hh ht
  obtain rfl : moved = cursorOf := funext hmoved
  have samples : ∀ f start step j ch, value f start step j ch = sampleWithin env.store l.config f start step j ch := hvalue
  have starves : l.starve = starved := (starve_eq l).trans hstarved.symm
  have quiet : silence = silent := hsilent.symm
  have work : ∀ {m : Lane} {b : Block}, l.state ≠ .off → l.workState env = (m, b) →
      (l.boundaryWork env).lane = m.watermark l.buffered ∧ (l.boundaryWork env).block = b :=
    boundaryWork_outcome hd ha (switchDue_stays fun sw p hsw => by rw [hs] at hsw; cases hsw)
  have rests : ∀ {m : Lane}, l.state ≠ .off → m.buffered = l.buffered → l.workState env = (m, silence) →
      (l.boundaryWork env).lane = m ∧ (l.boundaryWork env).block = silent := fun on hb hw => by
    rw [(work on hw).1, (work on hw).2, watermark_same _ _ hb, quiet]
    exact ⟨rfl, rfl⟩
  have emptied : l.queue = [] → starved.buffered = l.buffered := fun hq => by
    rw [← starves]
    simp only [Lane.buffered, starve_eq, hq]
    rfl
  refine ⟨fun hq => ⟨fun hst => ?_, fun hst haim => ?_⟩, fun hst hc => ⟨fun hq => ?_, fun hq => ?_⟩, fun aim m haligns => ?_,
    fun f rest step start c d e m hst hc hq hfrac hstart he positive inside hd' => ⟨fun small hstep hm => ?_, fun large hstep hm => ?_⟩⟩
  · refine rests (by rcases hst with e | e <;> rw [e] <;> decide) rfl ?_
    rcases hst with e | e
    · simp only [Lane.workState, e, Lane.workArmed, granted, hq]
    · rw [Lane.workState, e]
      exact workStarved_empty env hq
  · refine rests (by rw [hst]; decide) (emptied hq) ?_
    rw [Lane.workState, hst, ← starves]
    exact workBridging_starves granted hq haim
  · refine rests (by rcases hst with e | e <;> rw [e] <;> decide) (emptied hq) ?_
    rw [workState_purged env hst hc, workPurged_empty env hq, starves]
  · have on : l.state ≠ .off := by rcases hst with e | e <;> rw [e] <;> decide
    have bridged : l.workState env = ((l.bridgeToHead env).1, (l.bridgeToHead env).2) := by
      rw [workState_purged env hst hc, workPurged_frames env hq]
    have same := boundaryWork_of_state (env := env) (l := { l with state := .bridging, aim := .frame }) (m := (l.bridgeToHead env).1)
      (b := (l.bridgeToHead env).2) hd nofun hs ha rfl
    rw [boundaryWork_of_state hd on hs ha bridged, same]
    rfl
  · have aligns : l.AlignsTo t aim m := haligns
    have on := aligns.on
    have mframe := aligns.frame
    have mbuffered : m.buffered = l.buffered := by rw [mframe]; rfl
    refine ⟨fun hwaits => rests on mbuffered ?_, fun j0 c0 n hform hn => ?_⟩
    · rw [aligns.work granted, align_waits hwaits]
      rfl
    obtain ⟨nconfig, nflags, ntag, nswitch⟩ : n.config = l.config ∧ n.flags = l.flags ∧ n.lastTag = l.lastTag ∧ n.switch = none := by
      rw [hn, dropLate_frame, mframe]
      exact ⟨rfl, rfl, rfl, hs⟩
    refine ⟨fun hq => ?_, fun f rest hq => ⟨fun hlater hnext => ?_, fun j len start step c k hplace hj positive hstep hstart inside hk => ?_⟩⟩
    · have outcome := aligns.work granted
      rw [align_emptied hform hn hq] at outcome
      obtain ⟨lane, block⟩ := work on outcome
      refine ⟨block.trans quiet, fun armed => ?_, fun other => ?_⟩
      · rw [lane, decide_eq_true armed]
        rfl
      · rw [lane, decide_eq_false other, ← nflags]
        rfl
    · have outcome := aligns.work granted
      rw [align_next_waits hform hn hq hlater hnext] at outcome
      rw [(work on outcome).1, (work on outcome).2]
      exact ⟨rfl, quiet⟩
    · have outcome := aligns.work granted
      rw [align_placed_at hform hn hq hplace] at outcome
      have started := outcome.trans (startBlock_within hq nswitch hj positive hstep hstart inside)
      rw [(work on started).1, (work on started).2, hk, ← nflags, ← ntag]
      refine ⟨rfl, congrArg _ (List.map_congr_left fun p _ => ?_)⟩
      rw [samples, samples, nconfig]
  · have placed : l.cursor = some (cursorOf start) := by rw [hc, hstart, cursorOf_position hfrac]
    have outcome : l.workState env = l.workPlaying env := by rw [Lane.workState, hst]
    rw [workPlaying_trims (cursorContent_some hc hq) granted he small (trimmedStep_eq hstep),
      produce_within env.store .trim 0 (l := { l with lastError := some e, lastStep := some step }) hq placed positive inside] at outcome
    rw [(work (by rw [hst]; decide) outcome).1, (work (by rw [hst]; decide) outcome).2, hm, hd']
    refine ⟨rfl, List.map_congr_left fun p _ => ?_⟩
    rw [samples, samples]
    rfl
  · have placed : l.cursor = some (cursorOf start) := by rw [hc, hstart, cursorOf_position hfrac]
    have outcome : l.workState env = l.workPlaying env := by rw [Lane.workState, hst]
    have run := produce_within env.store .slip 0 (l := { l with
      lastError := some e
      lastStep := some step
      counters := { l.counters with slips := min (l.counters.slips + 1) 65535 }
      flags := l.flags ||| 0x04 }) hq placed positive inside
    generalize hx : ({ l with
      lastError := some e
      lastStep := some step
      counters := { l.counters with slips := min (l.counters.slips + 1) 65535 }
      flags := l.flags ||| 0x04
      cursor := some (cursorOf (start + 64 * step)) } : Lane) = x at run
    have after := afterSlip_cursor (l := x) (by rw [← hx]) (by rw [← hx]; exact hq) t e
    rw [workPlaying_slips (cursorContent_some hc hq) granted he large (plainStep_eq hstep) run, after, ← hx] at outcome
    rw [(work (by rw [hst]; decide) outcome).1, (work (by rw [hst]; decide) outcome).2, hm, hd']
    refine ⟨rfl, List.map_congr_left fun p _ => ?_⟩
    rw [samples, samples]
    simp only [fade, Nat.zero_add]

end Sys2Proof.Machine

/-! Frame ends within a block, the sample at a frame's last index, and the blocks that are runs of positions (R98 to R102, R116, R121). -/

namespace Sys2Proof.Machine

/-! ## The sample at the cursor (R121) -/

section
variable {f g : FrameRecord} {rest more : List FrameRecord} {c : Cursor} {step : Nat}

theorem joinSource_end (h : f.endMark = true ∨ rest = []) : joinSource f rest c step = none := by
  cases rest with
  | nil => rfl
  | cons g more => exact if_pos (by rw [h.resolve_right (List.cons_ne_nil g more)]; rfl)

/-- The next frame gives no sample at a gap, at a DISCONTINUITY, or where it is too short. -/
theorem joinSource_apart (h : 256 < frameGap f g ∨ g.samples ≤ (indexRise c step - 1) + skipOf (frameGap f g) ∨ g.disc = true) :
    joinSource f (g :: more) c step = none := by
  refine if_pos ?_
  simp only [Bool.or_eq_true, decide_eq_true_iff]
  rcases h with gap | short | disc
  · exact .inl (.inl (.inr gap))
  · exact .inr short
  · exact .inl (.inr disc)

theorem joinSource_joined (he : f.endMark = false) (gap : frameGap f g ≤ 256)
    (holds : (indexRise c step - 1) + skipOf (frameGap f g) < g.samples) (disc : g.disc = false) :
    joinSource f (g :: more) c step = some (g, (indexRise c step - 1) + skipOf (frameGap f g)) := by
  refine if_neg ?_
  simp only [he, disc, Bool.false_or, Bool.or_eq_true, decide_eq_true_iff, Bool.or_false]
  omega

variable (store : Memory) (l : Lane) (h : f.samples ≤ c.index + 1) (ch : Nat)
include h

theorem channelSample_held (hj : joinSource f rest c step = none) :
    channelSample store l f rest c step ch =
      interpolate (frameSample store l.config f c.index ch) (frameSample store l.config f c.index ch) c.frac := by
  unfold channelSample
  dsimp only
  rw [if_neg (Nat.not_lt_of_le h), hj]

theorem channelSample_joined {i : Nat} (hj : joinSource f rest c step = some (g, i)) :
    channelSample store l f rest c step ch =
      interpolate (frameSample store l.config f c.index ch) (frameSample store l.config g i ch) c.frac := by
  unfold channelSample
  dsimp only
  rw [if_neg (Nat.not_lt_of_le h), hj]

end

/-- The sample at the cursor lies between the sample there, x0, and the next one, x1. -/
theorem channelSample_between {store : Memory} {l : Lane} {f : FrameRecord} {rest : List FrameRecord} {c : Cursor} {step ch : Nat}
    {x1 : Int} (inside : c.index + 1 < f.samples → x1 = frameSample store l.config f (c.index + 1) ch)
    (ended : f.samples ≤ c.index + 1 → (f.endMark = true ∨ rest = []) → x1 = frameSample store l.config f c.index ch)
    (next : ∀ g more, f.samples ≤ c.index + 1 → f.endMark = false → rest = g :: more →
      (frameGap f g ≤ 256 → (indexRise c step - 1) + skipOf (frameGap f g) < g.samples → g.disc = false →
        x1 = frameSample store l.config g ((indexRise c step - 1) + skipOf (frameGap f g)) ch) ∧
      ((256 < frameGap f g ∨ g.samples ≤ (indexRise c step - 1) + skipOf (frameGap f g) ∨ g.disc = true) →
        x1 = frameSample store l.config f c.index ch)) :
    channelSample store l f rest c step ch = interpolate (frameSample store l.config f c.index ch) x1 c.frac := by
  by_cases within : c.index + 1 < f.samples
  · rw [inside within, channelSample_next store l rest within]
  · have last := Nat.not_lt.mp within
    by_cases stop : f.endMark = true ∨ rest = []
    · rw [ended last stop, channelSample_held store l last ch (joinSource_end stop)]
    · obtain ⟨mark, more_frames⟩ := not_or.mp stop
      obtain ⟨g, more, rfl⟩ := List.exists_cons_of_ne_nil more_frames
      obtain ⟨joined, apart⟩ := next g more last (Bool.not_eq_true _ ▸ mark) rfl
      by_cases away : 256 < frameGap f g ∨ g.samples ≤ (indexRise c step - 1) + skipOf (frameGap f g) ∨ g.disc = true
      · rw [apart away, channelSample_held store l last ch (joinSource_apart away)]
      · obtain ⟨gap, away⟩ := not_or.mp away
        obtain ⟨short, disc⟩ := not_or.mp away
        have disc := Bool.eq_false_iff.mpr disc
        rw [joined (Int.not_lt.mp gap) (Nat.not_le.mp short) disc, channelSample_joined store l last ch
          (joinSource_joined (Bool.not_eq_true _ ▸ mark) (Int.not_lt.mp gap) (Nat.not_le.mp short) disc)]

/-! ## A frame that continues in the next (R66, R69, R99) -/

/-- The lane in the next frame, by what enters it: its switch commits where the frame begins to play and is of the pending stream. -/
theorem joined_eq {l q p : Lane} {f g : FrameRecord} {more : List FrameRecord} {c : Cursor} (hq : l.queue = f :: g :: more)
    (hentered : q = ({ l.releaseHead with counters := if frameGap f g < -256 then
        { l.counters with overlaps := min (l.counters.overlaps + 1) 65535 } else l.counters } : Lane).entered g more
        { index := (c.index - f.samples) + skipOf (frameGap f g), frac := c.frac })
    (hp : ((∀ sw, l.switch = some sw → sw.stream ≠ g.stream ∨ g.status = .playing) ∧ p = q) ∨
      ((∃ sw, l.switch = some sw ∧ sw.stream = g.stream ∧ g.status ≠ .playing) ∧ p = q.commit)) : l.joined f g c = p := by
  have head : ∀ n : PlayCounters, ({ l.releaseHead with counters := n } : Lane).queue = g :: more := fun n =>
    (releaseHead_queue l).trans (by rw [hq]; rfl)
  have switch : ∀ n : PlayCounters, ({ l.releaseHead with counters := n } : Lane).switch = l.switch := fun n => by
    rw [(releaseHead_released l).frame]
  rcases hp with ⟨stays, rfl⟩ | ⟨⟨sw, hs, same, fresh⟩, rfl⟩
  · rw [hentered]
    exact enterHead_entered (head _) _ fun sw h => stays sw ((switch _).symm.trans h)
  · rw [hentered]
    exact enterHead_commits (head _) _ ((switch _).trans hs) same fresh

/-- A frame that the new index passes too ends within the same advance: an advance of no step from there (R99). -/
theorem frameEnd_noStep (k : BlockKind) {p : Lane} {g : FrameRecord} {fuel : Nat} {c : Cursor} (hfrac : c.frac < 2 ^ 24)
    (hq : p.queue ≠ []) (hn : p.queue.length ≤ fuel) (passes : g.samples ≤ c.index) :
    p.frameEnd k fuel c = p.advance k 0 g c := by
  have same : c.stepped 0 = c := by
    cases c
    simp only [Cursor.stepped, Cursor.mk.injEq] at hfrac ⊢
    omega
  have ended : p.advance k 0 g c = p.frameEnd k p.queue.length (c.stepped 0) := if_pos (by rw [← same] at passes; exact passes)
  rw [ended, same]
  exact frameEnd_fuel k _ _ c p hq hn (le_refl _)

/-- The advance into the next frame, on to its own end where the new index passes it too, and the switch that it commits (R66, R99). -/
theorem advance_joined (k : BlockKind) {step n : Nat} {l q p : Lane} {f g : FrameRecord} {more : List FrameRecord} {c : Cursor}
    (hq : l.queue = f :: g :: more) (ended : f.samples ≤ (c.stepped step).index) (he : f.endMark = false) (near : frameGap f g ≤ 256)
    (hn : n = ((c.stepped step).index - f.samples) + skipOf (frameGap f g))
    (hentered : q = ({ l.releaseHead with counters := if frameGap f g < -256 then
        { l.counters with overlaps := min (l.counters.overlaps + 1) 65535 } else l.counters } : Lane).entered g more
        { index := n, frac := (c.stepped step).frac })
    (hp : ((∀ sw, l.switch = some sw → sw.stream ≠ g.stream ∨ g.status = .playing) ∧ p = q) ∨
      ((∃ sw, l.switch = some sw ∧ sw.stream = g.stream ∧ g.status ≠ .playing) ∧ p = q.commit)) :
    (n < g.samples → l.advance k step f c = p) ∧
    (g.samples ≤ n →
      l.advance k step f c = p.advance k 0 { g with status := .playing } { index := n, frac := (c.stepped step).frac }) ∧
    (∀ sw, l.switch = some sw → sw.stream = g.stream → g.status = .queued →
      p.current = some g.stream ∧ p.switch = none ∧ p.cursor = some { index := n, frac := (c.stepped step).frac } ∧
      p.queue = { g with status := .playing } ::
        more.filter (fun x => !(decide (x.status = .queued) && decide (l.releaseHead.current = some x.stream)))) := by
  have joined : l.joined f g (c.stepped step) = p := joined_eq hq (by rw [hentered, hn]) hp
  have outcome : l.advance k step f c =
      if g.samples ≤ n then p.frameEnd k (more.length + 1) { index := n, frac := (c.stepped step).frac } else p := by
    rw [advance_end k hq ended, frameEnd_joined k hq rfl _ _ he near, joined, ← hn, List.length_cons]
  refine ⟨fun fits => ?_, fun passes => ?_, fun sw hs same fresh => ?_⟩
  · rw [outcome, if_neg (Nat.not_le_of_lt fits)]
  · have frames := joined_queue hq (c.stepped step)
    rw [joined] at frames
    rw [outcome, if_pos passes]
    exact frameEnd_noStep k (g := { g with status := .playing }) (Nat.mod_lt _ (by decide)) frames.1 frames.2 passes
  · have commits : p = q.commit := by
      rcases hp with ⟨stays, -⟩ | ⟨-, commits⟩
      · rcases stays sw hs with other | playing
        · exact absurd same other
        · rw [fresh] at playing
          cases playing
      · exact commits
    have pending : ({ l.releaseHead with counters := if frameGap f g < -256 then
        { l.counters with overlaps := min (l.counters.overlaps + 1) 65535 } else l.counters } : Lane).switch = some sw := by
      rw [(releaseHead_released l).frame]
      exact hs
    have left := entered_commit pending g more { index := n, frac := (c.stepped step).frac }
    rwa [← hentered, ← commits, same] at left

/-- Settles O12: the ends of a frame, the positions of a run, and the blocks that are such runs. -/
theorem frameEndOutcomes : Obligations.FrameEndOutcomes := by
  refine ⟨fun k step l m f rest c d hq hm hd => ?_, ?_, ?_⟩
  · obtain ⟨mflags, mcounters, mtag, mcurrent⟩ : m.flags = l.flags ∧ m.counters = l.counters ∧ m.lastTag = l.lastTag ∧
        m.current = l.current := by
      rw [hm, (releaseHead_released l).frame]
      exact ⟨rfl, rfl, rfl, rfl⟩
    have hstep : d = c.stepped step := hd
    have ends : f.samples ≤ d.index → l.advance k step f c = l.frameEnd k (rest.length + 1) d := fun h => by
      rw [hstep] at h ⊢
      exact advance_end k hq h
    refine ⟨fun h => ?_, fun hk h he => ?_, fun hk h he hr => ?_, fun g more gap n q p h he hr hgap => ⟨fun hk far => ?_,
      fun near hn hq' hp => ?_⟩⟩
    · rw [hstep] at h ⊢
      exact advance_within k h
    · rw [ends h, frameEnd_endMark k hq _ _ he, endStops_other hk, ← hm, ← mflags]
      rfl
    · rw [ends h, frameEnd_last k hq _ _ he hr, endStops_other hk, ← hm, ← mflags, ← mcounters]
      rfl
    · rw [ends h, frameEnd_gap k hq hr _ _ he (by rw [frameGap_eq, ← hgap]; exact far), endStops_other hk, ← hm, ← mcounters]
      rfl
    · rw [← frameGap_eq] at hgap
      rw [hgap] at near hn hq'
      rw [← skipOf_eq] at hn
      have hentered : q = ({ l.releaseHead with counters := if frameGap f g < -256 then
          { l.counters with overlaps := min (l.counters.overlaps + 1) 65535 } else l.counters } : Lane).entered g more
          { index := n, frac := d.frac } := by
        rw [hq', ← mflags, ← mtag, ← hm]
        rfl
      rw [hstep] at h hn hentered ⊢
      rw [← mcurrent, hm]
      exact advance_joined k (hq.trans (by rw [hr])) h he near hn hentered hp
  · intro store k step n j walk run still moves hrun
    rw [produce_walk n j walk (fun i _ => still i) (fun i c f rest _ => moves i c f rest)] at hrun
    have position : ∀ i, i < n → run.2[i]? = some ((walk i).heard store k step (j + i)) := fun i hi => by
      rw [hrun]
      simp [hi]
    refine ⟨by rw [hrun], by rw [hrun, List.length_map, List.length_range], fun i hi silent => ?_, ?_⟩
    · rw [position i hi, heard_silent silent]
    · intro i c f rest sample x0 x1 v hi hc hq hsample hx0 inside ended next hv
      have samples : ∀ g index ch, frameSample store (walk i).config g index ch = sample g index ch := fun g index ch =>
        (hsample g index ch).symm
      have channel : ∀ ch, channelSample store (walk i) f rest c step ch =
          x0 ch + (x1 ch - x0 ch) * ((c.frac / 256 : Nat) : Int) / 65536 := by
        intro ch
        rw [channelSample_between (x1 := x1 ch) (fun h => (inside h ch).trans (samples _ _ _).symm)
          (fun h stop => (ended h stop ch).trans ((hx0 ch).trans (samples _ _ _).symm)) (fun g more h he hr => ?_), samples, ← hx0]
        · rfl
        · obtain ⟨joined, apart⟩ := next g more (frameGap f g) ((indexRise c step - 1) + skipOf (frameGap f g)) h he hr
            (frameGap_eq f g) (by rw [skipOf_eq]; rfl)
          exact ⟨fun near holds disc => (joined near holds disc ch).trans (samples _ _ _).symm,
            fun away => (apart away ch).trans ((hx0 ch).trans (samples _ _ _).symm)⟩
      have faded : ∀ ch, fade k (j + i) (channelSample store (walk i) f rest c step ch) = v ch := by
        intro ch
        rw [channel, hv]
        cases k <;> simp only [fade, Nat.cast_add]
      rw [position i hi, heard_sounding hc hq]
      unfold positionSample
      split
      · simp only [faded]
      · simp only [faded]
  · intro env l h t plain hd ha early perm hh ht hplain
    have granted := permittedTarget_of_policy perm hh ht
    have due := switchDue_stays early
    have work : ∀ {m : Lane} {b : Block}, l.state ≠ .off → l.workState env = (m, b) →
        (l.boundaryWork env).lane = m.watermark l.buffered ∧ (l.boundaryWork env).block = b := boundaryWork_outcome hd ha due
    refine ⟨fun f rest c e trim step run hc hq he htrim => ⟨fun hst small hstep hrun => ?_, fun halt hst hhalt source hstep hrun => ?_,
      fun hst large hstep hrun => ?_⟩, fun aim m n j step run haligns hplaced hstep hrun => ?_⟩
    · have content := cursorContent_some hc hq
      have trimmed := workPlaying_trims content granted he small (trimmedStep_eq (by rw [hstep, hplain, htrim]))
      have plays : l.workState env = l.workPlaying env := by rw [Lane.workState, hst]
      exact work (by rw [hst]; decide) (plays.trans (trimmed.trans hrun.symm))
    · have content := cursorContent_some hc hq
      have faded := stoppingBlock_fades hhalt source content granted he (trimmedStep_eq (by rw [hstep, hplain, htrim]))
      rw [boundaryWork_stopping hd hst ha due (m := run.1) (b := run.2) (faded.trans hrun.symm)]
      exact ⟨rfl, rfl⟩
    · have content := cursorContent_some hc hq
      have slipped := workPlaying_slips content granted he large (plainStep_eq (by rw [hstep, hplain])) (m := run.1) (b := run.2) hrun.symm
      have plays : l.workState env = l.workPlaying env := by rw [Lane.workState, hst]
      obtain ⟨lane, block⟩ := work (by rw [hst]; decide) (plays.trans slipped)
      refine ⟨block, fun gone => ?_, fun d g more hcursor hqueue => ?_⟩
      · rw [lane, afterSlip_gone gone]
      · rw [lane, afterSlip_cursor hcursor hqueue]
    · have aligns : l.AlignsTo t aim m := haligns
      have outcome := aligns.work granted
      rw [hplaced] at outcome
      have started := outcome.trans (startBlock_eq (plainStep_eq (by rw [hstep, hplain])) n j)
      obtain ⟨lane, block⟩ := work aligns.on started
      rw [lane, block, hrun]
      exact ⟨rfl, rfl⟩

end Sys2Proof.Machine
